-- ==== Sys2Proof/Word.lean ====
section
/-! DEFINITION. The word types of the Address Lookup Engine (spec/00_scope.md R7, R8): what the spec treats as bits. -/

namespace Sys2Proof

/-- A 32-bit register value, command word or table word (R7, R61). -/
abbrev Word := BitVec 32

/-- A 96-bit table entry image (R5 `ENTRY_BITS`, R7). -/
abbrev Image := BitVec 96

/-- A 48-bit MAC address, the first octet in bits 47..40 (R23). -/
abbrev Mac := BitVec 48

/-- A 12-bit VLAN id (R5 `VID_BITS`). -/
abbrev Vid := BitVec 12

/-- `mask(w)` of R7 as a 32-bit word: the low `w` bits set. -/
def maskWord (w : Nat) : Word := BitVec.ofNat 32 (2 ^ w - 1)

/-- `mask(w)` of R7 as a 96-bit image. -/
def maskImage (w : Nat) : Image := BitVec.ofNat 96 (2 ^ w - 1)

end Sys2Proof
end

