-- ==== Sys2Proof/Config.lean ====
section
/-! DEFINITION. The configuration record `Cfg` (spec/00_scope.md R5), the variant descriptors (R290, D42), the owner's
input to CREATE (R290, R349), the fixed parameters of R5, and the free values (`draw()`). -/

namespace Sys2Proof

/-- The VLAN field table in use, "one per silicon family" (R5 `LAYOUT`, R33). -/
inductive Layout where
  | classic
  | nu
  | k3xg
  deriving DecidableEq, Repr

/-- The aging-pass rule (R5 `AGING_PASS`, R304, D22). -/
inductive AgingPassRule where
  | exact
  | loose
  deriving DecidableEq, Repr

/-- The register offset map `REG_OFF` (R5, R21, D3), with the defaults of the table of R21.
`portctl` and `maskMux` are the offsets of register 0 of their banks. -/
structure RegOff where
  idver        : Nat := 0x000
  status       : Nat := 0x004
  control      : Nat := 0x008
  prescale     : Nat := 0x010
  agingTimer   : Nat := 0x014
  unknownVlan  : Nat := 0x018
  tableControl : Nat := 0x020
  tableWord2   : Nat := 0x034
  tableWord1   : Nat := 0x038
  tableWord0   : Nat := 0x03C
  portctl      : Nat := 0x040
  unkMember    : Nat := 0x090
  unkUnreg     : Nat := 0x094
  unkReg       : Nat := 0x098
  unkUntag     : Nat := 0x09C
  maskMux      : Nat := 0x0C0
  threadDef    : Nat := 0x134
  deriving DecidableEq, Repr

/-- A static variant descriptor: what an identity string resolves to (R290, D42). -/
structure Variant where
  /-- the entry count, 0 meaning "read from status register" -/
  entries        : Nat
  /-- the policer count, used only by the count check of R290 -/
  policers       : Nat
  layout         : Layout
  hasStatusReg   : Bool := false
  hasHwAutoaging : Bool := false
  hasThreadDef   : Bool := false
  regOff         : RegOff := {}
  deriving DecidableEq, Repr

/-- The configuration of an engine (R5), fixed by CREATE (R290). `PMB`, `PNB`, `INDIRECT` and `NU_CONTROLS` are
derived from it (Machine/Layout.lean). -/
structure Cfg where
  n              : Nat
  p              : Nat
  layout         : Layout
  hasStatusReg   : Bool
  hasHwAutoaging : Bool
  hasThreadDef   : Bool
  fRef           : Nat
  ageoutS        : Nat
  regOff         : RegOff
  agingPass      : AgingPassRule
  deriving DecidableEq, Repr

/-- What the owner gives CREATE beside the identity string (R290, R349): the construction parameters of R5, the
overrides of R290 and the map `VARIANTS` (D42). -/
structure CreateRequest where
  p               : Nat
  fRef            : Nat
  ageoutS         : Nat
  agingPass       : AgingPassRule := .exact
  entryOverride   : Option Nat := none
  policerOverride : Option Nat := none
  variants        : List (String × Variant)
  deriving DecidableEq, Repr

namespace Config

/-- FREE VALUE (log 3): `draw()` of the spec, the `k`-th value drawn. It has no body: nothing can be proved of it. -/
opaque draw : Nat → Word

/-- `STATUS_VALUE`, the constant of the hardware instance that STATUS holds (R42). The spec gives no value: the
constant has no body, so nothing can be proved of it (log 23). -/
opaque statusValue : Word

/-- `IDVER_VALUE`, the constant of the hardware instance that IDVER holds (R43), open like `STATUS_VALUE` (log 23). -/
opaque idverValue : Word

/-- The configuration `Cfg0` of spec/95_test_vectors.md, with the default offsets of R21. It is what State.reset holds before CREATE fixes a
configuration, and what `withFetchWord` creates an engine with (DESIGN CHOICE, log 9, log 5). -/
def cfg0 : Cfg :=
  { n := 4, p := 3, layout := .classic, hasStatusReg := false, hasHwAutoaging := false, hasThreadDef := false,
    fRef := 250000000, ageoutS := 0, regOff := {}, agingPass := .exact }

end Config

end Sys2Proof
end

