-- ==== Sys2Proof/Syntax.lean ====
section
/-! DEFINITION. The commands and register accesses of the ALE: one constructor of `Instr` per row of
spec/opcode_table.json (R82, R90), and what the owner presents to the block (a command word, or an access). -/

namespace Sys2Proof

/-- The width of a register access; only 32 bits are admitted (R61, R62). -/
inductive AccessWidth where
  | w8
  | w16
  | w32
  | w64
  deriving DecidableEq, Repr

/-- The direction of a register access (R90). -/
inductive Dir where
  | read
  | write
  deriving DecidableEq, Repr

/-- One command (R82; the fields are the "word fields used") or one register access (R90). -/
inductive Instr where
  | tblRead
  | tblWrite
  | dump
  | restore
  | matchUcast
  | matchVlan
  | matchFree
  | findAgeable
  | addUcast (vlan secure blocked : Bool) (port : BitVec 5)
  | delUcast (vlan : Bool)
  | addMcast (vlan super : Bool) (mstate : BitVec 2)
  | delMcast (vlan : Bool)
  | flushMcast (any : Bool)
  | addVlan
  | vlanAddModify
  | vlanDelModify
  | delVlan (force : Bool)
  | setUnregMcast (en : Bool)
  | setAllmulti (en any : Bool) (port : BitVec 5)
  | ctrlGet (port cid : BitVec 5)
  | ctrlSet (port cid : BitVec 5)
  | ratelimitMc (port : BitVec 5)
  | ratelimitBc (port : BitVec 5)
  | start
  | stop
  | statusQuery
  | mmioRead (width : AccessWidth) (off : Word)
  | mmioWrite (width : AccessWidth) (off : Word) (v : Word)
  deriving DecidableEq, Repr

/-- What the owner presents to the block: a command word (R80), or a register access, the triple of R90 with the width
that R61 and R62 speak of. -/
inductive Request where
  | word (w : Word)
  | access (dir : Dir) (width : AccessWidth) (off : Word) (v : Word)
  deriving DecidableEq, Repr

end Sys2Proof
end

