-- ==== Sys2Proof/WellFormed.lean ====
section
/-! DEFINITION. Which instructions are well formed. A command's fields have the widths of R80, so every command is
encodable (R84, R85). A register access is well formed when it is one aligned 32-bit word (R61); the machine itself
refuses the others by name (R62). -/

namespace Sys2Proof

/-- R61: one 32-bit word. -/
def AccessWidth.wf : AccessWidth → Bool
  | .w32 => true
  | .w8 | .w16 | .w64 => false

/-- R61: an offset that is a multiple of 4. -/
def alignedOffset (off : Word) : Bool := off.toNat % 4 == 0

/-- Well-formedness of an instruction. -/
def Instr.wf : Instr → Bool
  | .mmioRead width off => width.wf && alignedOffset off
  | .mmioWrite width off _ => width.wf && alignedOffset off
  | .tblRead | .tblWrite | .dump | .restore => true
  | .matchUcast | .matchVlan | .matchFree | .findAgeable => true
  | .addUcast _ _ _ _ | .delUcast _ | .addMcast _ _ _ | .delMcast _ | .flushMcast _ => true
  | .addVlan | .vlanAddModify | .vlanDelModify | .delVlan _ | .setUnregMcast _ | .setAllmulti _ _ _ => true
  | .ctrlGet _ _ | .ctrlSet _ _ | .ratelimitMc _ | .ratelimitBc _ => true
  | .start | .stop | .statusQuery => true

/-- Whether the instruction is a command (it has a command word) and not a register access. -/
def Instr.isCommand : Instr → Bool
  | .mmioRead _ _ | .mmioWrite _ _ _ => false
  | .tblRead | .tblWrite | .dump | .restore => true
  | .matchUcast | .matchVlan | .matchFree | .findAgeable => true
  | .addUcast _ _ _ _ | .delUcast _ | .addMcast _ _ _ | .delMcast _ | .flushMcast _ => true
  | .addVlan | .vlanAddModify | .vlanDelModify | .delVlan _ | .setUnregMcast _ | .setAllmulti _ _ _ => true
  | .ctrlGet _ _ | .ctrlSet _ _ | .ratelimitMc _ | .ratelimitBc _ => true
  | .start | .stop | .statusQuery => true

end Sys2Proof
end

