-- ==== Sys2Proof/Decode.lean ====
section
/-! DEFINITION. Decoding and encoding of the command word (spec/30_encoding.md R80 to R85) and of the owner's requests
(R90), written from the tables of R80 and R82. Decoding is total; an illegal word is rejected by name (R84). -/

namespace Sys2Proof

/-- Why a command word is illegal (R84). -/
inductive DecodeError where
  /-- OPC is unassigned -/
  | unassignedOpcode
  /-- a reserved bit ([13] or [31:26]) is 1 -/
  | reservedBit
  /-- a field its opcode does not use is nonzero -/
  | unusedField
  deriving DecidableEq, Repr

/-- Bits [13] and [31:26] of the command word, "reserved, must be 0" (R80). -/
def reservedMask : Word := 0xFC002000

/-- OPC, bits [5:0] (R80). -/
def opcField : Word := 0x0000003F
/-- VLAN, bit [6] (R80). -/
def vlanField : Word := 0x00000040
/-- SECURE, bit [7] (R80). -/
def secureField : Word := 0x00000080
/-- BLOCKED, bit [8] (R80). -/
def blockedField : Word := 0x00000100
/-- SUPER, bit [9] (R80). -/
def superField : Word := 0x00000200
/-- ANY, bit [10] (R80). -/
def anyField : Word := 0x00000400
/-- EN, bit [11] (R80). -/
def enField : Word := 0x00000800
/-- FORCE, bit [12] (R80). -/
def forceField : Word := 0x00001000
/-- MSTATE, bits [15:14] (R80). -/
def mstateField : Word := 0x0000C000
/-- PORT, bits [20:16] (R80). -/
def portField : Word := 0x001F0000
/-- CTRLID, bits [25:21] (R80). -/
def ctrlidField : Word := 0x03E00000

/-- VLAN of a command word. -/
def vlanOf (w : Word) : Bool := w.getLsbD 6
/-- SECURE of a command word. -/
def secureOf (w : Word) : Bool := w.getLsbD 7
/-- BLOCKED of a command word. -/
def blockedOf (w : Word) : Bool := w.getLsbD 8
/-- SUPER of a command word. -/
def superOf (w : Word) : Bool := w.getLsbD 9
/-- ANY of a command word. -/
def anyOf (w : Word) : Bool := w.getLsbD 10
/-- EN of a command word. -/
def enOf (w : Word) : Bool := w.getLsbD 11
/-- FORCE of a command word. -/
def forceOf (w : Word) : Bool := w.getLsbD 12
/-- MSTATE of a command word. -/
def mstateOf (w : Word) : BitVec 2 := w.extractLsb' 14 2
/-- PORT of a command word. -/
def portOf (w : Word) : BitVec 5 := w.extractLsb' 16 5
/-- CTRLID of a command word. -/
def ctrlidOf (w : Word) : BitVec 5 := w.extractLsb' 21 5

/-- A row of the opcode map (R82): the OPC value, the word fields used, the command read from the word. -/
abbrev OpcodeRow : Type := BitVec 6 × Word × (Word → Instr)

/-- The opcode map (R82), one row per assigned OPC: the OPC value, the word fields the command uses, and the command
read from the word. -/
def opcodeMap : List OpcodeRow :=
  ([ (0x01, 0, fun _ => .tblRead),
    (0x02, 0, fun _ => .tblWrite),
    (0x03, 0, fun _ => .dump),
    (0x04, 0, fun _ => .restore),
    (0x08, 0, fun _ => .matchUcast),
    (0x09, 0, fun _ => .matchVlan),
    (0x0A, 0, fun _ => .matchFree),
    (0x0B, 0, fun _ => .findAgeable) ] : List OpcodeRow) ++
  ([ (0x10, vlanField ||| secureField ||| blockedField ||| portField,
      fun w => .addUcast (vlanOf w) (secureOf w) (blockedOf w) (portOf w)),
    (0x11, vlanField, fun w => .delUcast (vlanOf w)),
    (0x12, vlanField ||| superField ||| mstateField, fun w => .addMcast (vlanOf w) (superOf w) (mstateOf w)),
    (0x13, vlanField, fun w => .delMcast (vlanOf w)),
    (0x14, anyField, fun w => .flushMcast (anyOf w)) ] : List OpcodeRow) ++
  ([ (0x18, 0, fun _ => .addVlan),
    (0x19, 0, fun _ => .vlanAddModify),
    (0x1A, 0, fun _ => .vlanDelModify),
    (0x1B, forceField, fun w => .delVlan (forceOf w)),
    (0x1C, enField, fun w => .setUnregMcast (enOf w)),
    (0x1D, enField ||| anyField ||| portField, fun w => .setAllmulti (enOf w) (anyOf w) (portOf w)) ] : List OpcodeRow) ++
  ([ (0x20, portField ||| ctrlidField, fun w => .ctrlGet (portOf w) (ctrlidOf w)),
    (0x21, portField ||| ctrlidField, fun w => .ctrlSet (portOf w) (ctrlidOf w)),
    (0x22, portField, fun w => .ratelimitMc (portOf w)),
    (0x23, portField, fun w => .ratelimitBc (portOf w)) ] : List OpcodeRow) ++
  ([ (0x28, 0, fun _ => .start),
    (0x29, 0, fun _ => .stop),
    (0x2B, 0, fun _ => .statusQuery) ] : List OpcodeRow)

/-- Decode a command word (R84, R85 steps 1 and 2): OPC lookup, then the reserved and unused fields. -/
def decodeWord (w : Word) : Except DecodeError Instr :=
  match opcodeMap.lookup (w.extractLsb' 0 6) with
  | none => .error .unassignedOpcode
  | some (used, build) =>
    if w &&& reservedMask ≠ 0 then .error .reservedBit
    else if w &&& ~~~(opcField ||| used) ≠ 0 then .error .unusedField
    else .ok (build w)

/-- Decode what the owner presents (R85, R90). An access always names MMIO_READ or MMIO_WRITE; the machine refuses the
widths and offsets that R62 refuses. -/
def decodeRequest : Request → Except DecodeError Instr
  | .word w => decodeWord w
  | .access .read width off _ => .ok (.mmioRead width off)
  | .access .write width off v => .ok (.mmioWrite width off v)

/-- A flag at bit `b` of a command word. -/
def flagAt (f : Bool) (b : Nat) : Word := (BitVec.ofBool f).setWidth 32 <<< b

/-- A field with its least significant bit at bit `b` of a command word. -/
def fieldAt {k : Nat} (v : BitVec k) (b : Nat) : Word := v.setWidth 32 <<< b

/-- The command word of a command (R80, R82); an access has none and is given the illegal word 0. -/
def encodeWord : Instr → Word
  | .tblRead => 0x01
  | .tblWrite => 0x02
  | .dump => 0x03
  | .restore => 0x04
  | .matchUcast => 0x08
  | .matchVlan => 0x09
  | .matchFree => 0x0A
  | .findAgeable => 0x0B
  | .addUcast vlan secure blocked port =>
    0x10 ||| flagAt vlan 6 ||| flagAt secure 7 ||| flagAt blocked 8 ||| fieldAt port 16
  | .delUcast vlan => 0x11 ||| flagAt vlan 6
  | .addMcast vlan super mstate => 0x12 ||| flagAt vlan 6 ||| flagAt super 9 ||| fieldAt mstate 14
  | .delMcast vlan => 0x13 ||| flagAt vlan 6
  | .flushMcast any => 0x14 ||| flagAt any 10
  | .addVlan => 0x18
  | .vlanAddModify => 0x19
  | .vlanDelModify => 0x1A
  | .delVlan force => 0x1B ||| flagAt force 12
  | .setUnregMcast en => 0x1C ||| flagAt en 11
  | .setAllmulti en any port => 0x1D ||| flagAt en 11 ||| flagAt any 10 ||| fieldAt port 16
  | .ctrlGet port cid => 0x20 ||| fieldAt port 16 ||| fieldAt cid 21
  | .ctrlSet port cid => 0x21 ||| fieldAt port 16 ||| fieldAt cid 21
  | .ratelimitMc port => 0x22 ||| fieldAt port 16
  | .ratelimitBc port => 0x23 ||| fieldAt port 16
  | .start => 0x28
  | .stop => 0x29
  | .statusQuery => 0x2B
  | .mmioRead _ _ | .mmioWrite _ _ _ => 0

/-- What the owner presents for an instruction: the encoder. -/
def encode : Instr → Request
  | .mmioRead width off => .access .read width off 0
  | .mmioWrite width off v => .access .write width off v
  | .tblRead => .word (encodeWord .tblRead)
  | .tblWrite => .word (encodeWord .tblWrite)
  | .dump => .word (encodeWord .dump)
  | .restore => .word (encodeWord .restore)
  | .matchUcast => .word (encodeWord .matchUcast)
  | .matchVlan => .word (encodeWord .matchVlan)
  | .matchFree => .word (encodeWord .matchFree)
  | .findAgeable => .word (encodeWord .findAgeable)
  | .addUcast vlan secure blocked port => .word (encodeWord (.addUcast vlan secure blocked port))
  | .delUcast vlan => .word (encodeWord (.delUcast vlan))
  | .addMcast vlan super mstate => .word (encodeWord (.addMcast vlan super mstate))
  | .delMcast vlan => .word (encodeWord (.delMcast vlan))
  | .flushMcast any => .word (encodeWord (.flushMcast any))
  | .addVlan => .word (encodeWord .addVlan)
  | .vlanAddModify => .word (encodeWord .vlanAddModify)
  | .vlanDelModify => .word (encodeWord .vlanDelModify)
  | .delVlan force => .word (encodeWord (.delVlan force))
  | .setUnregMcast en => .word (encodeWord (.setUnregMcast en))
  | .setAllmulti en any port => .word (encodeWord (.setAllmulti en any port))
  | .ctrlGet port cid => .word (encodeWord (.ctrlGet port cid))
  | .ctrlSet port cid => .word (encodeWord (.ctrlSet port cid))
  | .ratelimitMc port => .word (encodeWord (.ratelimitMc port))
  | .ratelimitBc port => .word (encodeWord (.ratelimitBc port))
  | .start => .word (encodeWord .start)
  | .stop => .word (encodeWord .stop)
  | .statusQuery => .word (encodeWord .statusQuery)

/-- The request that stands for a row of spec/opcode_table.json: a command is ONE 32-bit word (R81), so only rows of at
most 32 bits have one, with the bits above `nbits` zero. -/
def tableRequest (nbits w : Nat) : Option Request :=
  if nbits ≤ 32 then some (.word (BitVec.ofNat 32 (w % 2 ^ nbits))) else none

/-- The instruction the decoder reads from an instruction whose bits are `w`, numbered as spec/opcode_table.json numbers
them (R80, R81: one 32-bit word). -/
def decodeTableWord (nbits w : Nat) : Option Instr :=
  match tableRequest nbits w with
  | none => none
  | some r => (decodeRequest r).toOption

end Sys2Proof
end

