-- ==== Sys2Proof/Machine/State.lean ====
section
/-! DEFINITION. The state of one ALE instance (spec/10_state.md R20 to R28) as plain data, the names of what can stop or
mark it, and State.reset (spec/70_reset_and_hazards.md R360). -/

namespace Sys2Proof.Machine

/-- Why the machine cannot take a step at all. -/
inductive Fault where
  /-- Raised by `step` and by every meaning when `faulted` is set: "The faulted state is quiescent: no agent takes
  another step" (R333). Safe: the spec gives no further step. -/
  | quiescent
  deriving DecidableEq, Repr

/-- Why the model gives a request no meaning. -/
inductive Refusal where
  /-- No meaning yet for the instruction. Raised only in Dispatch.lean's arms (none is left). Safe. -/
  | notModelled (mnemonic : String)
  /-- Raised by `step` for the owner's POWER_LOSS while `eng.started`: "no move" (R346, R349; log 15). Safe. -/
  | powerLossWhileStarted
  deriving DecidableEq, Repr

/-- The reasons of the spec's faults (R333). A fault of the spec is a NEXT state with `faulted` set (log 6). -/
inductive FaultReason where
  /-- a table index at or above N (R122, R155, R156) -/
  | tableIndex
  /-- a command read an argument register that holds `undef` (R23, R83) -/
  | undefArg
  /-- a codec access outside its range (R150, R151) -/
  | codecRange
  deriving DecidableEq, Repr

/-- The reasons of the spec's refusals (R334). A refusal of the spec is a NEXT state with `refused` set (log 7). -/
inductive RefusalReason where
  | illegalCommand
  | mmioWidth
  | mmioOffset
  | notCreated
  | recreate
  | badConfig
  deriving DecidableEq, Repr

/-- What a CREATE answers the owner: success, or one of the failures of R336. -/
inductive CreateOutcome where
  | created
  | unknownIdentity
  | zeroCount
  | alloc
  deriving DecidableEq, Repr

/-- The status of a completed command (R330). -/
inductive Status where
  | ok
  | invalidArgument
  | notFound
  | resourceExhausted
  | unsupported
  deriving DecidableEq, Repr

/-- The aging mode (R25). -/
inductive AgingMode where
  | off
  | sw
  | hw
  deriving DecidableEq, Repr

/-- The registers of the register space, by name (R21). `portctl n` is PORTCTL[n], `maskMux k` is VLAN_MASK_MUX[k]. -/
inductive Reg where
  | idver
  | status
  | control
  | prescale
  | agingTimer
  | unknownVlan
  | tableControl
  | tableWord2
  | tableWord1
  | tableWord0
  | portctl (n : Nat)
  | unkMember
  | unkUnreg
  | unkReg
  | unkUntag
  | maskMux (k : Nat)
  | threadDef
  deriving DecidableEq, Repr

/-- The named controls, in the order of their ids (R270). -/
inductive Control where
  | enable
  | clear
  | ageout
  | p0UniFlood
  | vlanNolearn
  | noPortVlan
  | ouiDeny
  | bypass
  | rateLimitTx
  | vlanAware
  | authEnable
  | rateLimit
  | portState
  | dropUntagged
  | dropUnknownVlan
  | nolearn
  | noSaUpdate
  | unknownVlanMember
  | unknownMcastFlood
  | unknownRegMcastFlood
  | untaggedEgress
  | maconly
  | maconlyCaf
  | bcastLimit
  | mcastLimit
  | defaultThreadId
  | defaultThreadEnable
  deriving DecidableEq, Repr

/-- The presence condition of a control descriptor (R270). -/
inductive Presence where
  | always
  | threadDef
  deriving DecidableEq, Repr

/-- A 32-bit value read from a register (R48, R120), kept in two parts so that what is fixed and what is free stay
apart: `named` holds the named fields as they read, `mask` says which bits those are, and the bits outside `mask` are
those of the free value `free`. -/
structure ReadValue where
  named : Word
  mask  : Word
  free  : Word
  deriving DecidableEq, Repr

/-- A control descriptor (R270). -/
structure Descriptor where
  name        : Control
  base        : Nat
  portStride  : Nat
  shift       : Nat
  shiftStride : Nat
  width       : Nat
  presence    : Presence
  deriving DecidableEq, Repr

/-- The table (R22) in canonical sparse form: indices strictly rising, no all-zero image listed. An index that is not
listed reads as the all-zero image (log 1). -/
abbrev Table := List (Nat × Image)

/-- The stored fields of the register space (R21, R35 to R45). TABLE_CONTROL has no storage (R38), TABLE_WORDk is TBLBUF
(R39), STATUS and IDVER are constants of the configuration (R42, R43). -/
structure Regs where
  control     : Word
  prescale    : Word
  /-- AGING_TIMER.PERIOD (R41) -/
  period      : BitVec 24
  unknownVlan : Word
  portctl     : Vector Word 20
  unkMember   : Word
  unkUnreg    : Word
  unkReg      : Word
  unkUntag    : Word
  maskMux     : Vector Word 8
  threadDef   : Word
  deriving DecidableEq, Repr

/-- The engine state `eng` (R25). -/
structure Engine where
  created           : Bool
  started           : Bool
  untagVid          : BitVec 4096
  agingMode         : AgingMode
  swArmed           : Bool
  swPending         : Option ReadValue
  ctrl              : List Descriptor
  contractViolation : Bool
  deriving DecidableEq, Repr

/-- The argument registers `a`; `none` is the spec's `undef` (R23). -/
structure Args where
  mac   : Option Mac
  vid   : Option Vid
  mask0 : Option Word
  mask1 : Option Word
  mask2 : Option Word
  mask3 : Option Word
  value : Option Word
  img   : Option Image
  buf   : Option (List Word)
  deriving DecidableEq, Repr

/-- The result registers `res`; `none` is the spec's `undef` (R24). -/
structure Results where
  status : BitVec 3
  index  : Option Word
  value  : Option Word
  aux    : Option Word
  img    : Option Image
  buf    : Option (List Word)
  deriving DecidableEq, Repr

/-- The entry that FWD-learn writes, by its free fields (R345): a VLAN id for a VLAN_ADDR entry or none for an ADDR
entry, the address, TOUCHED or UNTOUCHED, and the port. -/
structure Learned where
  vid     : Option Vid
  mac     : Mac
  touched : Bool
  port    : Nat
  deriving DecidableEq, Repr

/-- The atomic steps of the agents other than the owner (R341). -/
inductive AgentStep where
  /-- tick-read of the software aging timer (R300) -/
  | tickRead
  /-- tick-write of the software aging timer (R300) -/
  | tickWrite
  /-- HW_TICK of the hardware aging counter (R302) -/
  | hwTick
  /-- FWD-learn into entry `i` (R345) -/
  | fwdLearn (i : Nat) (u : Learned)
  /-- FWD-touch of entry `i` (R345) -/
  | fwdTouch (i : Nat)
  /-- FWD-move of entry `i` to port `p` (R345) -/
  | fwdMove (i p : Nat)
  deriving DecidableEq, Repr

/-- The owner's write of one argument register (R23, R349). -/
inductive ArgWrite where
  | mac (v : Mac)
  | vid (v : Vid)
  | mask0 (v : Word)
  | mask1 (v : Word)
  | mask2 (v : Word)
  | mask3 (v : Word)
  | value (v : Word)
  | img (v : Image)
  | buf (v : List Word)
  deriving DecidableEq, Repr

/-- One move between commands: the owner's (R349) or an agent's (R341). -/
inductive Move where
  /-- the owner presents a command word or an access -/
  | request (r : Request)
  /-- the owner writes an argument register -/
  | arg (w : ArgWrite)
  /-- the owner's CREATE with an identity string (R290) -/
  | create (c : CreateRequest) (identity : String)
  /-- POWER_LOSS (R346) -/
  | powerLoss
  /-- a step of another agent -/
  | agent (a : AgentStep)
  deriving DecidableEq, Repr

/-- The constants of the hardware instance: what STATUS and IDVER hold (R42, R43). No step changes them. -/
structure Chip where
  statusValue : Word
  idverValue  : Word
  deriving DecidableEq, Repr

/-- The machine. The fields up to `refused` are the spec's (R20); `cfg` is the configuration that CREATE fixes (R5,
R290); the rest are the model's own (INVENTORY.md, '## State'). -/
structure State where
  regs        : Regs
  table       : Table
  tblBuf      : Image
  ageCnt      : BitVec 24
  eng         : Engine
  a           : Args
  res         : Results
  faulted     : Bool
  refused     : Bool
  /-- the constants of the instance (R42, R43; log 23) -/
  chip        : Chip
  /-- the configuration (log 9) -/
  cfg         : Cfg
  /-- POWER_LOSS came before CREATE fixed N: the entries it redraws are drawn when CREATE fixes N (R346; log 15) -/
  tableLost   : Bool
  /-- how many free values have been drawn (log 3) -/
  drawCount   : Nat
  /-- what the other agents do before each next micro-step of a command (log 4) -/
  sched       : List (List AgentStep)
  /-- what the owner and the agents do next, between commands (log 5) -/
  agenda      : List Move
  /-- the value the last MMIO_READ returned (log 8) -/
  busData     : Option ReadValue
  /-- what the last CREATE answered (log 8) -/
  lastCreate  : Option CreateOutcome
  /-- the reason of the last fault (log 8) -/
  lastFault   : Option FaultReason
  /-- the reason of the last refusal (log 8) -/
  lastRefusal : Option RefusalReason
  deriving DecidableEq, Repr

/-- The registers at power-on: DESIGN CHOICE 0 where R360 says "draw" (log 2). -/
def Regs.reset : Regs :=
  { control := 0, prescale := 0, period := 0, unknownVlan := 0, portctl := Vector.replicate 20 0,
    unkMember := 0, unkUnreg := 0, unkReg := 0, unkUntag := 0, maskMux := Vector.replicate 8 0, threadDef := 0 }

/-- The engine before CREATE (R25, R360); `untagVid`, `agingMode` and `ctrl` are unset there (log 9). -/
def Engine.reset : Engine :=
  { created := false, started := false, untagVid := 0, agingMode := .off, swArmed := false, swPending := none,
    ctrl := [], contractViolation := false }

/-- Every argument register holds `undef` (R23). -/
def Args.reset : Args :=
  { mac := none, vid := none, mask0 := none, mask1 := none, mask2 := none, mask3 := none, value := none,
    img := none, buf := none }

/-- `res.STATUS = 0`, the others `undef` (R24). -/
def Results.reset : Results :=
  { status := 0, index := none, value := none, aux := none, img := none, buf := none }

/-- The constants of this instance, which the spec leaves open (R42, R43, R360; log 23). -/
def Chip.instanceConstants : Chip := { statusValue := Config.statusValue, idverValue := Config.idverValue }

/-- The machine right after power-on (R360). -/
def State.reset : State :=
  { regs := Regs.reset, table := [], tblBuf := 0, ageCnt := 0, eng := Engine.reset, a := Args.reset,
    res := Results.reset, faulted := false, refused := false,
    chip := Chip.instanceConstants, cfg := Config.cfg0, tableLost := false, drawCount := 0, sched := [],
    agenda := [], busData := none, lastCreate := none, lastFault := none, lastRefusal := none }

end Sys2Proof.Machine
end

