-- ==== Sys2Proof/Machine/Layout.lean ====
section
/-! DEFINITION. The tables of the spec that depend on the configuration: derived parameters (R5), entry fields (R30 to
R33), the register map and the named fields of each register (R21, R35 to R45), control descriptors (R270, R276), and
the well-formedness of a configuration (R6). -/

namespace Sys2Proof.Machine

/-! ### Fixed and derived parameters (R5) -/

/-- `RL_MIN_PPS`: the rate-limit granularity (R5). -/
def rlMinPps : Nat := 1000
/-- `AGING_BITS`: the width of the aging timer value (R5). -/
def agingBits : Nat := 24
/-- `PRESCALE_BITS`: the width of the prescale field (R5, R40). -/
def prescaleBits : Nat := 19
/-- `MUX_COUNT`: the registers of the mask bank (R5). -/
def muxCount : Nat := 8

/-- `PMB`, the port-mask bit width (R5). -/
def pmb (c : Cfg) : Nat := c.p

/-- `PNB = ceil(log2 P)` (R5), for P at least 2. -/
def pnb (c : Cfg) : Nat := Nat.log2 (c.p - 1) + 1

/-- `INDIRECT`: true iff LAYOUT = NU (R5). -/
def indirect (c : Cfg) : Bool := c.layout == .nu

/-- `NU_CONTROLS`: true iff LAYOUT in NU, K3XG (R5). -/
def nuControls (c : Cfg) : Bool := c.layout == .nu || c.layout == .k3xg

/-- `PMAX(LAYOUT)` (R6). -/
def pmax : Layout → Nat
  | .classic => 3
  | .nu => 20
  | .k3xg => 12

/-- `mask(P)` as a word. -/
def portMaskAll (c : Cfg) : Word := maskWord c.p

/-- The host port's mask bit, `HOST = 1` (R230). -/
def hostBit : Word := 1

/-! ### Entry fields (R30 to R33) -/

/-- The fields of R31, every entry type except the VLAN-specific fields. -/
inductive Field where
  | type
  | vid
  | addrOctet (j : Nat)
  | mcast
  | ucastType
  | secure
  | blocked
  | portNum
  | mcastState
  | super
  | portMask
  deriving DecidableEq, Repr

/-- The start bit of a field (R31). -/
def fieldStart : Field → Nat
  | .type => 60
  | .vid => 48
  | .addrOctet j => 40 - 8 * j
  | .mcast => 40
  | .ucastType => 62
  | .secure => 64
  | .blocked => 65
  | .portNum => 66
  | .mcastState => 62
  | .super => 65
  | .portMask => 66

/-- The width of a field (R31). -/
def fieldWidth (c : Cfg) : Field → Nat
  | .type => 2
  | .vid => 12
  | .addrOctet _ => 8
  | .mcast => 1
  | .ucastType => 2
  | .secure => 1
  | .blocked => 1
  | .portNum => pnb c
  | .mcastState => 2
  | .super => 1
  | .portMask => pmb c

/-- The VLAN field ids of R33. -/
inductive VlanField where
  | memberList
  | unregMcastMsk
  | regMcastMsk
  | forceUntagMsk
  | unregMcastIdx
  | regMcastIdx
  deriving DecidableEq, Repr

/-- The width of a VLAN field descriptor: fixed, or dynamic (PMB) (R33). -/
inductive VlanWidth where
  | fixed (w : Nat)
  | dyn
  deriving DecidableEq, Repr

/-- The VLAN field table (R33): start bit and width, or none where the layout does not allow the field. -/
def vlanDesc : Layout → VlanField → Option (Nat × VlanWidth)
  | .classic, .memberList => some (0, .fixed 3)
  | .classic, .unregMcastMsk => some (8, .fixed 3)
  | .classic, .regMcastMsk => some (16, .fixed 3)
  | .classic, .forceUntagMsk => some (24, .fixed 3)
  | .classic, .unregMcastIdx => none
  | .classic, .regMcastIdx => none
  | .nu, .memberList => some (0, .dyn)
  | .nu, .unregMcastMsk => none
  | .nu, .regMcastMsk => none
  | .nu, .forceUntagMsk => some (24, .dyn)
  | .nu, .unregMcastIdx => some (20, .fixed 3)
  | .nu, .regMcastIdx => some (44, .fixed 3)
  | .k3xg, .memberList => some (0, .dyn)
  | .k3xg, .unregMcastMsk => some (12, .dyn)
  | .k3xg, .regMcastMsk => some (36, .dyn)
  | .k3xg, .forceUntagMsk => some (24, .dyn)
  | .k3xg, .unregMcastIdx => none
  | .k3xg, .regMcastIdx => none

/-- The width of a VLAN field in bits: `(w = dyn) ? PMB : w` (R158). -/
def vlanWidth (c : Cfg) : VlanWidth → Nat
  | .fixed w => w
  | .dyn => pmb c

/-- The place of a VLAN field for the active layout: start and width in bits (R33, R158). -/
def vlanPlace (c : Cfg) (id : VlanField) : Option (Nat × Nat) :=
  (vlanDesc c.layout id).map fun d => (d.1, vlanWidth c d.2)

/-! ### Registers (R21) -/

/-- The registers of every configuration (R21). -/
def regMapBase (o : RegOff) : List (Nat × Reg) :=
  [(o.idver, .idver), (o.control, .control), (o.prescale, .prescale), (o.tableControl, .tableControl),
   (o.tableWord2, .tableWord2), (o.tableWord1, .tableWord1), (o.tableWord0, .tableWord0)]

/-- The registers of the unknown-VLAN controls (R37). -/
def regMapUnknown (c : Cfg) : List (Nat × Reg) :=
  let o := c.regOff
  if nuControls c then
    [(o.unkMember, .unkMember), (o.unkUnreg, .unkUnreg), (o.unkReg, .unkReg), (o.unkUntag, .unkUntag)]
  else [(o.unknownVlan, .unknownVlan)]

/-- The registers that a feature flag makes exist (R41, R42, R45). -/
def regMapFlags (c : Cfg) : List (Nat × Reg) :=
  [(c.hasStatusReg, (c.regOff.status, Reg.status)), (c.hasHwAutoaging, (c.regOff.agingTimer, Reg.agingTimer)),
    (c.hasThreadDef, (c.regOff.threadDef, Reg.threadDef))].filterMap fun x => if x.1 then some x.2 else none

/-- The registers per port and the mask bank (R36, R44). -/
def regMapBanks (c : Cfg) : List (Nat × Reg) :=
  List.append ((List.range c.p).map fun n => (c.regOff.portctl + 4 * n, Reg.portctl n))
    (if indirect c then (List.range muxCount).map fun k => (c.regOff.maskMux + 4 * k, Reg.maskMux k) else [])

/-- The registers present in a configuration with their byte offsets (R21). -/
def regMap (c : Cfg) : List (Nat × Reg) :=
  regMapBase c.regOff ++ regMapFlags c ++ regMapUnknown c ++ regMapBanks c

/-- The register at a byte offset, none where the offset names no register of the configuration (R21, R62). -/
def regAt (c : Cfg) (off : Nat) : Option Reg := (regMap c).lookup off

/-- The bits of a register that hold named fields (R35 to R45); the others are reserved (R48). -/
def namedMask (c : Cfg) : Reg → Word
  | .idver => 0x0000FFFF
  | .status => 0x0000FFFF
  | .control => 0xE00001FF
  | .prescale => maskWord prescaleBits
  | .agingTimer => 0x00FFFFFF
  | .unknownVlan => 0x3F3F3F3F
  | .tableControl => 0
  | .tableWord2 => 0xFFFFFFFF
  | .tableWord1 => 0xFFFFFFFF
  | .tableWord0 => 0xFFFFFFFF
  | .portctl _ => 0xFFFF283F
  | .unkMember => portMaskAll c
  | .unkUnreg => portMaskAll c
  | .unkReg => portMaskAll c
  | .unkUntag => portMaskAll c
  | .maskMux _ => portMaskAll c
  | .threadDef => 0x0000803F

/-- The RW fields of CONTROL, [31] and [8:0]; CLEAR [30] and AGEOUT [29] are self-clearing (R35). -/
def controlRw : Word := 0x800001FF
/-- ENABLE, CONTROL [31] (R35). -/
def enableBit : Nat := 31
/-- CLEAR, CONTROL [30] (R35). -/
def clearBit : Nat := 30
/-- AGEOUT, CONTROL [29] (R35). -/
def ageoutBit : Nat := 29

/-- One bit of a register as a word, `1 << b`. -/
def bitWord (b : Nat) : Word := (1 : Word) <<< b

/-! ### Control descriptors (R270, R276) -/

/-- A global one-register control. -/
def globalCtrl (name : Control) (base shift width : Nat) : Descriptor :=
  { name := name, base := base, portStride := 0, shift := shift, shiftStride := 0, width := width,
    presence := .always }

/-- A per-port control: port stride 4, shift stride 0. -/
def portCtrl (c : Cfg) (name : Control) (shift width : Nat) : Descriptor :=
  { name := name, base := c.regOff.portctl, portStride := 4, shift := shift, shiftStride := 0, width := width,
    presence := .always }

/-- A control of THREAD_DEF, present when HAS_THREAD_DEF. -/
def threadCtrl (c : Cfg) (name : Control) (shift width : Nat) : Descriptor :=
  { name := name, base := c.regOff.threadDef, portStride := 0, shift := shift, shiftStride := 0, width := width,
    presence := .threadDef }

/-- Ids 17 to 20: the default rows of R270, or the rows patched at construction when NU_CONTROLS (R276). -/
def unknownVlanCtrls (c : Cfg) : List Descriptor :=
  let o := c.regOff
  if nuControls c then
    [ globalCtrl .unknownVlanMember o.unkMember 0 c.p,
      globalCtrl .unknownMcastFlood o.unkUnreg 0 c.p,
      globalCtrl .unknownRegMcastFlood o.unkReg 0 c.p,
      globalCtrl .untaggedEgress o.unkUntag 0 c.p ]
  else
    [ globalCtrl .unknownVlanMember o.unknownVlan 0 6,
      globalCtrl .unknownMcastFlood o.unknownVlan 8 6,
      globalCtrl .unknownRegMcastFlood o.unknownVlan 16 6,
      globalCtrl .untaggedEgress o.unknownVlan 24 6 ]

/-- The instance-owned descriptor table, indexed by control id (R270), patched (R276). -/
def ctrlTable (c : Cfg) : List Descriptor :=
  ([ globalCtrl .enable c.regOff.control 31 1,
    globalCtrl .clear c.regOff.control 30 1,
    globalCtrl .ageout c.regOff.control 29 1,
    globalCtrl .p0UniFlood c.regOff.control 8 1,
    globalCtrl .vlanNolearn c.regOff.control 7 1,
    globalCtrl .noPortVlan c.regOff.control 6 1,
    globalCtrl .ouiDeny c.regOff.control 5 1,
    globalCtrl .bypass c.regOff.control 4 1,
    globalCtrl .rateLimitTx c.regOff.control 3 1,
    globalCtrl .vlanAware c.regOff.control 2 1,
    globalCtrl .authEnable c.regOff.control 1 1,
    globalCtrl .rateLimit c.regOff.control 0 1 ] : List Descriptor) ++
  ([ portCtrl c .portState 0 2,
    portCtrl c .dropUntagged 2 1,
    portCtrl c .dropUnknownVlan 3 1,
    portCtrl c .nolearn 4 1,
    portCtrl c .noSaUpdate 5 1 ] : List Descriptor) ++
  unknownVlanCtrls c ++
  ([ portCtrl c .maconly 11 1,
    portCtrl c .maconlyCaf 13 1,
    portCtrl c .bcastLimit 24 8,
    portCtrl c .mcastLimit 16 8,
    threadCtrl c .defaultThreadId 0 6,
    threadCtrl c .defaultThreadEnable 15 1 ] : List Descriptor)

/-- The id of BCAST_LIMIT (R270). -/
def bcastLimitId : BitVec 5 := 23
/-- The id of MCAST_LIMIT (R270). -/
def mcastLimitId : BitVec 5 := 24

/-! ### Well-formedness of a configuration (R5, R6) -/

/-- The fields meaningful in a unicast address entry (R31), as (start, width). -/
def ucastPlaces (c : Cfg) : List (Nat × Nat) :=
  ([.type, .vid, .addrOctet 0, .addrOctet 1, .addrOctet 2, .addrOctet 3, .addrOctet 4, .addrOctet 5, .ucastType,
    .secure, .blocked, .portNum] : List Field).map fun f => (fieldStart f, fieldWidth c f)

/-- The fields meaningful in a multicast address entry (R31), as (start, width). -/
def mcastPlaces (c : Cfg) : List (Nat × Nat) :=
  ([.type, .vid, .addrOctet 0, .addrOctet 1, .addrOctet 2, .addrOctet 3, .addrOctet 4, .addrOctet 5, .mcastState,
    .super, .portMask] : List Field).map fun f => (fieldStart f, fieldWidth c f)

/-- The fields meaningful in a VLAN entry (R31, R33), as (start, width). -/
def vlanPlaces (c : Cfg) : List (Nat × Nat) :=
  [(fieldStart .type, fieldWidth c .type), (fieldStart .vid, fieldWidth c .vid)] ++
  ([.memberList, .unregMcastMsk, .regMcastMsk, .forceUntagMsk, .unregMcastIdx, .regMcastIdx] : List VlanField).filterMap
    (vlanPlace c)

/-- A field lies inside bits 95..0 and has a width the codec takes (R6, R150). -/
def placeFits (d : Nat × Nat) : Bool := decide (1 ≤ d.2) && decide (d.2 ≤ 32) && decide (d.1 + d.2 ≤ 96)

/-- Two fields share no bit. -/
def placesApart (d e : Nat × Nat) : Bool := decide (d.1 + d.2 ≤ e.1) || decide (e.1 + e.2 ≤ d.1)

/-- No two fields of the list share a bit. -/
def noOverlap : List (Nat × Nat) → Bool
  | [] => true
  | d :: ds => ds.all (placesApart d) && noOverlap ds

/-- The field-fit check of R6 for one entry type. -/
def placesOk (ds : List (Nat × Nat)) : Bool := ds.all placeFits && noOverlap ds

/-- The offsets of a list are pairwise different. -/
def offsetsApart : List Nat → Bool
  | [] => true
  | o :: os => os.all (fun x => !(x == o)) && offsetsApart os

/-- Every register has one offset of its own, aligned and of 32 bits (log 10: the spec's R6 does not say it). -/
def offsetsOk (c : Cfg) : Bool :=
  let os := (regMap c).map (·.1)
  offsetsApart os && os.all (fun o => decide (o % 4 = 0) && decide (o < 2 ^ 32))

/-- `2 <= P <= PMAX(LAYOUT)` and the field-fit check (R5, R6), 1 <= N, F_REF >= 1000 (R5), N within ENTRY_POINTER and
the register map (log 10). -/
def cfgWf (c : Cfg) : Bool :=
  decide (1 ≤ c.n) && decide (c.n ≤ 2 ^ 31) && decide (2 ≤ c.p) && decide (c.p ≤ pmax c.layout)
  && placesOk (ucastPlaces c) && placesOk (mcastPlaces c) && placesOk (vlanPlaces c)
  && decide (1000 ≤ c.fRef) && offsetsOk c

end Sys2Proof.Machine
end

