-- ==== Sys2Proof/Machine/Codec.lean ====
section
/-! DEFINITION. The entry codec (spec/42_codec_table_port.md R150 to R158), the entry predicates (43_search.md R181 to
R183) and the entry images that commands and agents build (R200, R304, R345): pure bit arithmetic, no hardware access. -/

namespace Sys2Proof.Machine

/-! ### GetField and SetField (R150, R151) -/

/-- The codec's range: `0 <= s < 96`, `1 <= w <= 32`, `s + w <= 96` (R150). -/
def codecInRange (s w : Nat) : Bool :=
  decide (s < 96) && decide (1 ≤ w) && decide (w ≤ 32) && decide (s + w ≤ 96)

/-- `GetField(E, s, w) = (E >> s) & mask(w)` (R150). -/
def getField (e : Image) (s w : Nat) : Word := ((e >>> s) &&& maskImage w).setWidth 32

/-- `SetField(E, s, w, v)` (R151): `(E & ~(mask(w) << s)) | ((v & mask(w)) << s)` in 96 bits. -/
def setField (e : Image) (s w : Nat) (v : Word) : Image :=
  (e &&& ~~~(maskImage w <<< s)) ||| ((v.setWidth 96 &&& maskImage w) <<< s)

/-- GetField as a direct codec call: outside its range it raises CODEC_RANGE (R150). -/
def getFieldChecked (e : Image) (s w : Nat) : Except FaultReason Word :=
  if codecInRange s w then .ok (getField e s w) else .error .codecRange

/-- SetField as a direct codec call: outside its range it raises CODEC_RANGE (R151). -/
def setFieldChecked (e : Image) (s w : Nat) (v : Word) : Except FaultReason Image :=
  if codecInRange s w then .ok (setField e s w v) else .error .codecRange

/-! ### Named accessors (R157) -/

/-- `Get_F(E)` (R157). -/
def getF (c : Cfg) (e : Image) (f : Field) : Word := getField e (fieldStart f) (fieldWidth c f)

/-- `Set_F(E, v)` (R157). -/
def setF (c : Cfg) (e : Image) (f : Field) (v : Word) : Image := setField e (fieldStart f) (fieldWidth c f) v

/-- The entry types (R30). -/
inductive EntryType where
  | free
  | addr
  | vlan
  | vlanAddr
  deriving DecidableEq, Repr

/-- The code of an entry type (R30). -/
def entryTypeCode : EntryType → Word
  | .free => 0
  | .addr => 1
  | .vlan => 2
  | .vlanAddr => 3

/-- The entry type of a 2-bit code (R30). -/
def entryTypeOf (code : Word) : EntryType :=
  if code = 1 then .addr else if code = 2 then .vlan else if code = 3 then .vlanAddr else .free

/-- The aging classes of a unicast entry (R32). -/
inductive UcastType where
  | persistent
  | untouched
  | oui
  | touched
  deriving DecidableEq, Repr

/-- The code of an aging class (R32). -/
def ucastTypeCode : UcastType → Word
  | .persistent => 0
  | .untouched => 1
  | .oui => 2
  | .touched => 3

/-- The aging class of a 2-bit code (R32). -/
def ucastTypeOf (code : Word) : UcastType :=
  if code = 1 then .untouched else if code = 2 then .oui else if code = 3 then .touched else .persistent

/-- TYPE of an image, E[61:60] (R30). -/
def entryType (e : Image) : EntryType := entryTypeOf (getField e 60 2)

/-- Set TYPE. -/
def setType (e : Image) (t : EntryType) : Image := setField e 60 2 (entryTypeCode t)

/-- UCAST_TYPE of an image (R31, R32). -/
def ucastType (e : Image) : UcastType := ucastTypeOf (getField e 62 2)

/-- Set UCAST_TYPE. -/
def setUcastType (e : Image) (u : UcastType) : Image := setField e 62 2 (ucastTypeCode u)

/-- VID of an image. -/
def getVid (e : Image) : Vid := (getField e 48 12).setWidth 12

/-- Set VID. -/
def setVid (e : Image) (v : Vid) : Image := setField e 48 12 (v.setWidth 32)

/-- A flag as a word. -/
def flagWord (b : Bool) : Word := (BitVec.ofBool b).setWidth 32

/-! ### MAC address accessors (R154) -/

/-- Octet `j` of a MAC address, `m[47-8j:40-8j]`, m0 first (R154). -/
def macOctet (m : Mac) (j : Nat) : Word := (m.extractLsb' (40 - 8 * j) 8).setWidth 32

/-- `SetAddr(E, m)`: the six 8-bit fields, most significant octet first (R154). -/
def setAddr (e : Image) (m : Mac) : Image :=
  (List.range 6).foldl (fun e j => setField e (40 - 8 * j) 8 (macOctet m j)) e

/-- Octet `j` of an image's address, `GetField(E, 40 - 8j, 8)` (R154). -/
def addrOctetOf (e : Image) (j : Nat) : BitVec 8 := (getField e (40 - 8 * j) 8).setWidth 8

/-- `GetAddr(E)`: the concatenation of the six octets, m0 first (R154). -/
def getAddr (e : Image) : Mac :=
  addrOctetOf e 0 ++ (addrOctetOf e 1 ++ (addrOctetOf e 2 ++ (addrOctetOf e 3 ++ (addrOctetOf e 4 ++ addrOctetOf e 5))))

/-- The broadcast address ff:ff:ff:ff:ff:ff (R205). -/
def broadcastMac : Mac := 0xFFFFFFFFFFFF

/-! ### Entry predicates (R181 to R183) -/

/-- `IsAddr(E)` (R181). -/
def isAddr (e : Image) : Bool := entryType e == .addr || entryType e == .vlanAddr

/-- `IsVlan(E)` (R181). -/
def isVlan (e : Image) : Bool := entryType e == .vlan

/-- `IsFree(E)` (R181). -/
def isFree (e : Image) : Bool := entryType e == .free

/-- `IsMcast(E)`: the group bit of the stored address (R182). -/
def isMcast (e : Image) : Bool := getField e 40 1 == 1

/-- `Ageable(E)` (R183): an address entry, not multicast, whose UCAST_TYPE is neither PERSISTENT nor OUI. -/
def ageable (e : Image) : Bool :=
  isAddr e && !isMcast e && !(ucastType e == .persistent) && !(ucastType e == .oui)

/-- The predicate of `MatchAddr(addr, vid)` (R184). -/
def addrMatches (addr : Mac) (vid : Vid) (e : Image) : Bool := isAddr e && getVid e == vid && getAddr e == addr

/-- The predicate of `MatchVlan(vid)` (R184). -/
def vlanMatches (vid : Vid) (e : Image) : Bool := isVlan e && getVid e == vid

/-! ### Images -/

/-- `SetScope(E, vlan, vid')` (R200). -/
def setScope (e : Image) (vlan : Bool) (vid : Vid) : Image :=
  if vlan then setVid (setType e .vlanAddr) vid else setType e .addr

/-- The fresh image of ADD_UCAST (R201). -/
def ucastImage (c : Cfg) (vlan secure blocked : Bool) (port : BitVec 5) (addr : Mac) (vid : Vid) : Image :=
  let e := setScope 0 vlan vid
  let e := setAddr e addr
  let e := setUcastType e .persistent
  let e := setF c e .secure (flagWord secure)
  let e := setF c e .blocked (flagWord blocked)
  setF c e .portNum (port.setWidth 32)

/-- The image ADD_MCAST writes, from the existing image or 0 (R203). -/
def mcastImage (c : Cfg) (old : Image) (vlan super : Bool) (mstate : BitVec 2) (addr : Mac) (vid : Vid)
    (mask : Word) : Image :=
  let e := setScope old vlan vid
  let e := setAddr e addr
  let e := setF c e .super (flagWord super)
  let e := setF c e .mcastState (mstate.setWidth 32)
  setF c e .portMask (getF c e .portMask ||| mask)

/-- A multicast image with ports removed: FREE when the mask becomes empty, else the smaller mask (R204, R205). -/
def removePorts (c : Cfg) (e : Image) (mask : Word) : Image :=
  let pm := getF c e .portMask &&& ~~~mask
  if pm = 0 then setType e .free else setF c e .portMask pm

/-- `Freed(E) = draw() ? Set_TYPE(E, FREE) : 0` (R304), the draw given. -/
def freed (e : Image) (keep : Bool) : Image := if keep then setType e .free else 0

/-- What one aging pass makes of one entry (R304), the free value `d` given: bit 0 decides Freed(E), the rest the choice
of the LOOSE rule. -/
def ageEntry (rule : AgingPassRule) (e : Image) (d : Word) : Image :=
  if ageable e then
    match rule with
    | .exact => if ucastType e = .untouched then freed e (d.getLsbD 0) else setUcastType e .untouched
    | .loose =>
      if (d >>> 1).toNat % 3 = 0 then e
      else if (d >>> 1).toNat % 3 = 1 then setUcastType e .untouched
      else freed e (d.getLsbD 0)
  else e

/-- Whether FWD-learn may write such an entry: MCAST = 0 and PORT_NUM < P (R345). -/
def learnedOk (c : Cfg) (u : Learned) : Bool := !(u.mac.getLsbD 40) && decide (u.port < c.p)

/-- The image FWD-learn writes (R345): the fields named there, SECURE = BLOCKED = 0, every other bit 0. -/
def learnedImage (c : Cfg) (u : Learned) : Image :=
  let e := match u.vid with
    | some v => setVid (setType 0 .vlanAddr) v
    | none => setType 0 .addr
  let e := setAddr e u.mac
  let e := setUcastType e (if u.touched then .touched else .untouched)
  setF c e .portNum (BitVec.ofNat 32 u.port)

end Sys2Proof.Machine
end

