-- ==== Sys2Proof/Machine/Ops.lean ====
section
/-! DEFINITION. The named operations over the table, the registers and the sticky marks: free values, table entries,
register reads and writes (spec/41_register_interface.md R120 to R125), the aging pass (R304), raising a fault (R333)
and refusing a request (R334). -/

namespace Sys2Proof.Machine

/-! ### Free values (log 3) -/

/-- Draw a free value (`draw()` of the spec). -/
def drawWord (s : State) : Word × State := (Config.draw s.drawCount, { s with drawCount := s.drawCount + 1 })

/-- Draw a free bit. -/
def drawBool (s : State) : Bool × State :=
  ((Config.draw s.drawCount).getLsbD 0, { s with drawCount := s.drawCount + 1 })

/-- A free 96-bit image, from three draws. -/
def drawnImage (k : Nat) : Image := Config.draw k ++ Config.draw (k + 1) ++ Config.draw (k + 2)

/-! ### The table (R22), a sparse list in canonical form (log 1) -/

/-- What an index that is not listed reads as: the all-zero image, a FREE entry (log 1). -/
def unlistedImage : Image := 0

/-- `TABLE[i]`. -/
def Table.entry : Table → Nat → Image
  | [], _ => unlistedImage
  | (k, v) :: t, i => if i = k then v else Table.entry t i

/-- List the image `v` at index `i`, in order. -/
def Table.put : Table → Nat → Image → Table
  | [], i, v => [(i, v)]
  | (k, w) :: t, i, v =>
    if i < k then (i, v) :: (k, w) :: t
    else if i = k then (i, v) :: t
    else (k, w) :: Table.put t i v

/-- List nothing at index `i`. -/
def Table.unlist (t : Table) (i : Nat) : Table := t.filter (fun c => !(c.1 == i))

/-- `TABLE[i] <- v`, keeping the canonical form: the value an unlisted index reads as is not listed. -/
def Table.store (t : Table) (i : Nat) (v : Image) : Table :=
  if v = unlistedImage then Table.unlist t i else Table.put t i v

/-- The canonical form: indices strictly rising, no listed image equal to what an unlisted index reads as. -/
def Table.wf : Table → Bool
  | [] => true
  | (k, v) :: t => !(v == unlistedImage) && t.all (fun c => decide (k < c.1)) && Table.wf t

/-- Every listed index is below `n`. -/
def Table.below (n : Nat) (t : Table) : Bool := t.all (fun c => decide (c.1 < n))

/-- `TABLE[i] <- E` as a state change. -/
def setEntry (i : Nat) (e : Image) (s : State) : State := { s with table := Table.store s.table i e }

/-! ### The aging pass (R304) -/

/-- The pass over the `n` entries from index `i` on; one free value per entry. -/
def agingPassFrom : Nat → Nat → State → State
  | 0, _, s => s
  | n + 1, i, s =>
    agingPassFrom n (i + 1)
      { s with
        table := Table.store s.table i (ageEntry s.cfg.agingPass (Table.entry s.table i) (Config.draw s.drawCount))
        drawCount := s.drawCount + 1 }

/-- `AgingPass()`: one atomic step over the whole table (R304, R64). -/
def agingPass (s : State) : State := agingPassFrom s.cfg.n 0 s

/-! ### Register reads and writes by name (R120 to R125) -/

/-- The named fields of a register as they read (R120): CLEAR and AGEOUT read 0, TABLE_CONTROL has no field, TABLE_WORDk
is a window onto TBLBUF, AGING_TIMER reads PERIOD, STATUS and IDVER their constants. -/
def namedValue (s : State) : Reg → Word
  | .idver => s.chip.idverValue
  | .status => s.chip.statusValue
  | .control => s.regs.control &&& controlRw
  | .prescale => s.regs.prescale
  | .agingTimer => s.regs.period.setWidth 32
  | .unknownVlan => s.regs.unknownVlan
  | .tableControl => 0
  | .tableWord2 => s.tblBuf.extractLsb' 64 32
  | .tableWord1 => s.tblBuf.extractLsb' 32 32
  | .tableWord0 => s.tblBuf.extractLsb' 0 32
  | .portctl n => (s.regs.portctl[n]?).getD 0
  | .unkMember => s.regs.unkMember
  | .unkUnreg => s.regs.unkUnreg
  | .unkReg => s.regs.unkReg
  | .unkUntag => s.regs.unkUntag
  | .maskMux k => (s.regs.maskMux[k]?).getD 0
  | .threadDef => s.regs.threadDef

/-- MMIO_READ of a register by name (R120): its named fields, and a fresh free value in its reserved bits (R48). A
register without reserved bits draws nothing. -/
def readReg (r : Reg) (s : State) : ReadValue × State :=
  let m := namedMask s.cfg r
  if m = 0xFFFFFFFF then ({ named := namedValue s r, mask := m, free := 0 }, s)
  else
    let (d, s') := drawWord s
    ({ named := namedValue s r &&& m, mask := m, free := d }, s')

/-- The 32-bit word of a value read. -/
def readWord (v : ReadValue) : Word := if ~~~v.mask = 0 then v.named else v.named ||| (v.free &&& ~~~v.mask)

/-- The bits `k` of a value read, `v & k`. Where `k` takes no reserved bit the free value plays no part. -/
def readUnder (v : ReadValue) (k : Word) : Word := if k &&& ~~~v.mask = 0 then v.named &&& k else readWord v &&& k

/-- The bits of a register that a write acts on (R48: a write to reserved bits has no effect): the named fields, and for
TABLE_CONTROL, which has no storage, the whole word (R122). -/
def writtenMask (c : Cfg) (r : Reg) : Word :=
  match r with
  | .tableControl => 0xFFFFFFFF
  | .idver | .status | .control | .prescale | .agingTimer | .unknownVlan | .tableWord2 | .tableWord1 | .tableWord0
  | .portctl _ | .unkMember | .unkUnreg | .unkReg | .unkUntag | .maskMux _ | .threadDef => namedMask c r

/-- A change of the stored register fields. -/
def setRegs (f : Regs → Regs) (s : State) : State := { s with regs := f s.regs }

/-- MMIO_WRITE to CONTROL (R124): the RW fields, then CLEAR, then AGEOUT. -/
def writeControl (v : Word) (s : State) : State :=
  let s := setRegs (fun g => { g with control := v &&& controlRw }) s
  let s := if v.getLsbD clearBit then { s with table := [] } else s
  if v.getLsbD ageoutBit then agingPass s else s

/-- The index of a TABLE_CONTROL value, ENTRY_POINTER [30:0] (R38, R122). -/
def entryPointer (v : Word) : Nat := (v.extractLsb' 0 31).toNat

/-- MMIO_WRITE to TABLE_CONTROL with an index below N (R122): read-select or commit. -/
def writeTableControl (v : Word) (s : State) : State :=
  if v.getLsbD 31 then setEntry (entryPointer v) s.tblBuf s
  else { s with tblBuf := Table.entry s.table (entryPointer v) }

/-- The fault of a register write, if any: TABLE_CONTROL with an index at or above N (R122). -/
def writeFault (r : Reg) (v : Word) (s : State) : Option FaultReason :=
  match r with
  | .tableControl => if s.cfg.n ≤ entryPointer v then some .tableIndex else none
  | .idver | .status | .control | .prescale | .agingTimer | .unknownVlan | .tableWord2 | .tableWord1 | .tableWord0
  | .portctl _ | .unkMember | .unkUnreg | .unkReg | .unkUntag | .maskMux _ | .threadDef => none

/-- MMIO_WRITE to a register by name, for a write that does not fault (R121 to R125): the named RW fields are stored,
reserved bits are dropped, RO registers keep their value. -/
def writeReg (r : Reg) (v : Word) (s : State) : State :=
  let x := v &&& namedMask s.cfg r
  match r with
  | .idver => s
  | .status => s
  | .control => writeControl v s
  | .prescale => setRegs (fun g => { g with prescale := x }) s
  | .agingTimer => { setRegs (fun g => { g with period := v.setWidth 24 }) s with ageCnt := v.setWidth 24 }
  | .unknownVlan => setRegs (fun g => { g with unknownVlan := x }) s
  | .tableControl => writeTableControl v s
  | .tableWord2 => { s with tblBuf := v ++ s.tblBuf.extractLsb' 0 64 }
  | .tableWord1 => { s with tblBuf := s.tblBuf.extractLsb' 64 32 ++ v ++ s.tblBuf.extractLsb' 0 32 }
  | .tableWord0 => { s with tblBuf := s.tblBuf.extractLsb' 32 64 ++ v }
  | .portctl n => setRegs (fun g => { g with portctl := g.portctl.setIfInBounds n x }) s
  | .unkMember => setRegs (fun g => { g with unkMember := x }) s
  | .unkUnreg => setRegs (fun g => { g with unkUnreg := x }) s
  | .unkReg => setRegs (fun g => { g with unkReg := x }) s
  | .unkUntag => setRegs (fun g => { g with unkUntag := x }) s
  | .maskMux k => setRegs (fun g => { g with maskMux := g.maskMux.setIfInBounds k x }) s
  | .threadDef => setRegs (fun g => { g with threadDef := x }) s

/-! ### Faults and refusals: the block's exceptional events (R333, R334) -/

/-- `raise Fault(reason)` (R333): the sticky mark is set, the micro-steps already done keep their effect, no result
register is written. -/
def raiseFault (r : FaultReason) (s : State) : State := { s with faulted := true, lastFault := some r }

/-- A refusal (R334): the sticky mark is set and no other state changes. -/
def refuse (r : RefusalReason) (s : State) : State := { s with refused := true, lastRefusal := some r }

end Sys2Proof.Machine
end

