-- ==== Sys2Proof/Machine/Agents.lean ====
section
/-! DEFINITION. The agents other than the owner (spec/60_exceptions.md R341, R345; 47_lifecycle_aging.md R300 to R302),
their steps between the micro-steps of a command (20_memory.md R66), and the micro-steps themselves (R155, R156,
R126). -/

namespace Sys2Proof.Machine

/-! ### The software aging timer (R300) -/

/-- When the software timer agent exists: created (R299) and aging mode SW (R300). -/
def swTimerPresent (s : State) : Bool := s.eng.created && s.eng.agingMode == .sw

/-- When tick-read is enabled (R300). -/
def tickReadEnabled (s : State) : Bool := swTimerPresent s && s.eng.swArmed && s.eng.swPending.isNone

/-- tick-read: `eng.sw_pending <- MemRead(CONTROL, 4)` (R300). -/
def tickRead (s : State) : State :=
  if tickReadEnabled s then
    let (r, s) := readReg .control s
    { s with eng := { s.eng with swPending := some r } }
  else s

/-- tick-write: the AGEOUT pulse with CONTROL as read at tick-read (R300). The timer stays
armed. The reserved bits of the value read are dropped by the write (R48). -/
def tickWrite (s : State) : State :=
  if swTimerPresent s then
    match s.eng.swPending with
    | none => s
    | some r =>
      let s := writeControl (readUnder r (namedMask s.cfg .control) ||| bitWord ageoutBit) s
      { s with eng := { s.eng with swPending := none } }
  else s

/-! ### The hardware aging counter (R302) -/

/-- When HW_TICK is enabled: HAS_HW_AUTOAGING, created and PERIOD not 0 (R302, R341). -/
def hwTickEnabled (s : State) : Bool :=
  s.cfg.hasHwAutoaging && s.eng.created && !(s.regs.period == 0)

/-- HW_TICK (R302). -/
def hwTick (s : State) : State :=
  if hwTickEnabled s then
    if 1 < s.ageCnt.toNat then { s with ageCnt := s.ageCnt - 1 }
    else
      let s := agingPass s
      { s with ageCnt := s.regs.period }
  else s

/-! ### The forwarding path (R345) -/

/-- When FWD is enabled on entry `i`: created, ENABLE = 1, `i < N` (R345). -/
def fwdEnabled (i : Nat) (s : State) : Bool :=
  s.eng.created && s.regs.control.getLsbD enableBit && decide (i < s.cfg.n)

/-- FWD-learn (R345). -/
def fwdLearn (i : Nat) (u : Learned) (s : State) : State :=
  let e := Table.entry s.table i
  if fwdEnabled i s && learnedOk s.cfg u && (isFree e || ageable e) then setEntry i (learnedImage s.cfg u) s else s

/-- FWD-touch (R345). -/
def fwdTouch (i : Nat) (s : State) : State :=
  let e := Table.entry s.table i
  if fwdEnabled i s && ageable e && ucastType e == .untouched then setEntry i (setUcastType e .touched) s else s

/-- FWD-move (R345). -/
def fwdMove (i p : Nat) (s : State) : State :=
  let e := Table.entry s.table i
  if fwdEnabled i s && ageable e && getF s.cfg e .secure == 0 && decide (p < s.cfg.p) then
    setEntry i (setUcastType (setF s.cfg e .portNum (BitVec.ofNat 32 p)) .touched) s
  else s

/-! ### Agent steps and interleaving -/

/-- One step of an agent (R341). A step that is not enabled leaves the state as it is (log 14). -/
def agentStep : AgentStep → State → State
  | .tickRead, s => tickRead s
  | .tickWrite, s => tickWrite s
  | .hwTick, s => hwTick s
  | .fwdLearn i u, s => fwdLearn i u s
  | .fwdTouch i, s => fwdTouch i s
  | .fwdMove i p, s => fwdMove i p s

/-- A sequence of agent steps. -/
def agentSteps : List AgentStep → State → State
  | [], s => s
  | a :: as, s => agentSteps as (agentStep a s)

/-- What the other agents do before the next micro-step of a command (R66): the next list of the schedule (log 4). -/
def interleave (s : State) : State :=
  match s.sched with
  | [] => s
  | now :: later => agentSteps now { s with sched := later }

/-! ### Micro-steps (R66) -/

/-- `MemRead(off, 4)` of a register as a micro-step of a command (R126). -/
def memRead (r : Reg) (s : State) : ReadValue × State := readReg r (interleave s)

/-- `MemWrite(off, 4, v)` to a register as a micro-step of a command (R126). -/
def memWrite (r : Reg) (v : Word) (s : State) : State := writeReg r v (interleave s)

/-- The table-port read sequence of R155 with an index below N: the read-select copies TABLE[i] to TBLBUF (R27), and
the three data words return it. Laws/Table.lean proves it equal to the register sequence. -/
def selectEntry (i : Nat) (s : State) : Image × State :=
  let e := Table.entry s.table i
  (e, { s with tblBuf := e })

/-- The table-port write sequence of R156 with an index below N: the three data words, then the commit. -/
def commitEntry (i : Nat) (e : Image) (s : State) : State := setEntry i e { s with tblBuf := e }

/-- `TblRead(i)` as a micro-step (R155), the index below N. -/
def tblRead (i : Nat) (s : State) : Image × State := selectEntry i (interleave s)

/-- `TblWrite(i, E)` as a micro-step (R156), the index below N. -/
def tblWrite (i : Nat) (e : Image) (s : State) : State := commitEntry i e (interleave s)

/-- The index check of TblRead and TblWrite (R155, R156). -/
def indexFault (i : Nat) (s : State) : Bool := decide (s.cfg.n ≤ i)

/-- `MaybeRewrite(i, E): if draw() then TblWrite(i, E)` (R205), with `E` the image read last. Where TABLE[i] and TBLBUF
still hold `E` the rewrite changes nothing, so the free value decides only where another agent changed the entry since it
was read (log 19). -/
def maybeRewrite (i : Nat) (e : Image) (s : State) : State :=
  let (b, s) := drawBool s
  let s := interleave s
  if Table.entry s.table i = e ∧ s.tblBuf = e then s
  else if b then commitEntry i e s
  else s

/-- `for i in 0..N-1` of a command body that faults nowhere: `n` rounds from index `i` on (R88). -/
def forEntries (body : Nat → State → State) : Nat → Nat → State → State
  | 0, _, s => s
  | n + 1, i, s => forEntries body n (i + 1) (body i s)

end Sys2Proof.Machine
end

