-- ==== Sys2Proof/Machine/Flags.lean ====
section
/-! DEFINITION. The conditions the block reports. It has no condition flags (spec/10_state.md R26, R47): the only one is
`res.STATUS` (60_exceptions.md R330), with the sticky marks of R333, R334 and R335. -/

namespace Sys2Proof.Machine

/-- The numeric code of a status (R330). -/
def statusCode : Status → BitVec 3
  | .ok => 0
  | .invalidArgument => 1
  | .notFound => 2
  | .resourceExhausted => 3
  | .unsupported => 4

/-- A change of the result registers. -/
def setRes (f : Results → Results) (s : State) : State := { s with res := f s.res }

/-- `return St`: the command ends and writes `res.STATUS` (R24, R330). -/
def withStatus (c : Status) (s : State) : State := setRes (fun r => { r with status := statusCode c }) s

/-- The outcome of a command that completes with a status. -/
def complete (c : Status) (s : State) : Host.Outcome State Fault Refusal := .next (withStatus c s)

/-- The outcome of a command that faults (R333). -/
def faultOutcome (r : FaultReason) (s : State) : Host.Outcome State Fault Refusal := .next (raiseFault r s)

/-- The outcome of a request that is refused (R334). -/
def refuseOutcome (r : RefusalReason) (s : State) : Host.Outcome State Fault Refusal := .next (refuse r s)

/-- The sticky report of a disallowed VLAN field id (R34, R335). -/
def reportViolation (s : State) : State := { s with eng := { s.eng with contractViolation := true } }

/-- `res.INDEX <- i`. -/
def setIndex (i : Nat) (s : State) : State := setRes (fun r => { r with index := some (BitVec.ofNat 32 i) }) s

/-- `res.IMG <- E`. -/
def setImg (e : Image) (s : State) : State := setRes (fun r => { r with img := some e }) s

/-- `res.VALUE <- v`. -/
def setValue (v : Word) (s : State) : State := setRes (fun r => { r with value := some v }) s

/-- `res.AUX <- v`. -/
def setAux (v : Word) (s : State) : State := setRes (fun r => { r with aux := some v }) s

/-- `res.BUF <- ws`. -/
def setBuf (ws : List Word) (s : State) : State := setRes (fun r => { r with buf := some ws }) s

end Sys2Proof.Machine
end

