-- ==== Sys2Proof/Machine/Operands.lean ====
section
/-! DEFINITION. Operand assembly (spec/30_encoding.md R83), the checks every command word passes first (60_exceptions.md
R332), and the VLAN field accessors that report a disallowed field (42_codec_table_port.md R158). -/

namespace Sys2Proof.Machine

/-- Steps 1 and 2 of R332 for a legal request: a faulted machine is quiescent (R333), and before CREATE every request is
refused (R299). -/
def whenCreated (s : State) (body : Host.Outcome State Fault Refusal) : Host.Outcome State Fault Refusal :=
  if s.faulted then .fault .quiescent
  else if s.eng.created then body
  else refuseOutcome .notCreated s

/-- Step 3 of R332: read an argument register; `undef` raises Fault(UNDEF_ARG) (R23). -/
def withArg {α : Type} (a : Option α) (s : State) (body : α → Host.Outcome State Fault Refusal) :
    Host.Outcome State Fault Refusal :=
  match a with
  | none => faultOutcome .undefArg s
  | some v => body v

/-- `vid' = VLAN ? a.VID : 0`; `a.VID` is not read when VLAN = 0 (R83). -/
def scopedVid (vlan : Bool) (s : State) : Option Vid := if vlan then s.a.vid else some 0

/-- The VLAN filter of FLUSH_MCAST: none filters nothing (ANY = 1), else `a.VID`, which may be `undef` (R83). -/
def flushFilter (any : Bool) (s : State) : Option (Option Vid) := if any then some none else s.a.vid.map some

/-- `mK' = a.MASKk & mask(P)` (R83). -/
def portMask (c : Cfg) (m : Word) : Word := m &&& portMaskAll c

/-- `port < P` (R86). -/
def portOk (c : Cfg) (port : BitVec 5) : Bool := decide (port.toNat < c.p)

/-! ### VLAN field accessors (R158) -/

/-- `VlanGet(E, id)` (R158): a disallowed field answers a free value and is reported (R34). -/
def vlanGet (e : Image) (id : VlanField) (s : State) : Word × State :=
  match vlanPlace s.cfg id with
  | some d => (getField e d.1 d.2, s)
  | none => drawWord (reportViolation s)

/-- `VlanSet(E, id, v)` (R158): a disallowed field leaves the image and is reported (R34). -/
def vlanSet (e : Image) (id : VlanField) (v : Word) (s : State) : Image × State :=
  match vlanPlace s.cfg id with
  | some d => (setField e d.1 d.2 v, s)
  | none => (e, reportViolation s)

/-- `eng.untag_vid[vid] <- b`. -/
def setUntagBit (vid : Vid) (b : Bool) (s : State) : State :=
  let bit : BitVec 4096 := 1 <<< vid.toNat
  { s with eng := { s.eng with
      untagVid := if b then s.eng.untagVid ||| bit else s.eng.untagVid &&& ~~~bit } }

/-- `SetUntag(E, vid, u)` (R231). -/
def setUntag (e : Image) (vid : Vid) (u : Word) (s : State) : Image × State :=
  let (e, s) := vlanSet e .forceUntagMsk u s
  (e, setUntagBit vid (u.getLsbD 0) s)

end Sys2Proof.Machine
end

