-- ==== Sys2Proof/Machine/Scan.lean ====
section
/-! DEFINITION. The linear scan and the allocation order (spec/43_search.md R180, R184, R189). -/

namespace Sys2Proof.Machine

/-- The scan of `n` entries from index `i` on: the first index whose entry satisfies `pred` at the instant it is read,
with the entry as read (R180). Each TblRead is a micro-step. -/
def scanFrom (pred : Image → Bool) : Nat → Nat → State → Option (Nat × Image) × State
  | 0, _, s => (none, s)
  | n + 1, i, s =>
    let (e, s) := tblRead i s
    if pred e then (some (i, e), s) else scanFrom pred n (i + 1) s

/-- The scan over the whole table (R180). -/
def scan (pred : Image → Bool) (s : State) : Option (Nat × Image) × State := scanFrom pred s.cfg.n 0 s

/-- `MatchAddr(addr, vid)` (R184). -/
def matchAddr (addr : Mac) (vid : Vid) (s : State) : Option (Nat × Image) × State := scan (addrMatches addr vid) s

/-- `MatchVlan(vid)` (R184). -/
def matchVlan (vid : Vid) (s : State) : Option (Nat × Image) × State := scan (vlanMatches vid) s

/-- `MatchFree()` (R184). -/
def matchFree (s : State) : Option (Nat × Image) × State := scan isFree s

/-- `FindAgeable()` (R184). -/
def findAgeable (s : State) : Option (Nat × Image) × State := scan ageable s

/-- `Alloc(found)` (R189): the match, else a free slot, else an ageable slot, else none. The free scan and the ageable
scan are separate scans. -/
def alloc (found : Option Nat) (s : State) : Option Nat × State :=
  match found with
  | some i => (some i, s)
  | none =>
    match matchFree s with
    | (some (i, _), s) => (some i, s)
    | (none, s) =>
      match findAgeable s with
      | (some (i, _), s) => (some i, s)
      | (none, s) => (none, s)

end Sys2Proof.Machine
end

