-- ==== Sys2Proof/Machine/AddrEntries.lean ====
section
/-! DEFINITION. The address entry commands ADD_UCAST, DEL_UCAST, ADD_MCAST, DEL_MCAST and FLUSH_MCAST
(spec/44_addr_entries.md R200 to R205). -/

namespace Sys2Proof.Machine

/-- The index of a match. -/
def indexOf (found : Option (Nat × Image)) : Option Nat := found.map (·.1)

/-- The end of the add commands: ResourceExhausted without a write, or the write and its index (R201, R203, R240). -/
def writeAlloc (slot : Option Nat) (e : Image) (s : State) : Host.Outcome State Fault Refusal :=
  match slot with
  | none => complete .resourceExhausted s
  | some i => complete .ok (setIndex i (tblWrite i e s))

/-- ADD_UCAST (R201). -/
def execAddUcast (vlan secure blocked : Bool) (port : BitVec 5) (s : State) : Host.Outcome State Fault Refusal :=
  whenCreated s <| withArg s.a.mac s fun addr => withArg (scopedVid vlan s) s fun vid =>
    if portOk s.cfg port then
      let e := ucastImage s.cfg vlan secure blocked port addr vid
      let (found, s) := matchAddr addr vid s
      let (slot, s) := alloc (indexOf found) s
      writeAlloc slot e s
    else complete .invalidArgument s

/-- DEL_UCAST (R202). -/
def execDelUcast (vlan : Bool) (s : State) : Host.Outcome State Fault Refusal :=
  whenCreated s <| withArg s.a.mac s fun addr => withArg (scopedVid vlan s) s fun vid =>
    match matchAddr addr vid s with
    | (none, s) => complete .notFound s
    | (some (i, _), s) => complete .ok (setIndex i (tblWrite i 0 s))

/-- The existing image, re-read, or 0 (R203, R240). -/
def existingImage (found : Option Nat) (s : State) : Image × State :=
  match found with
  | none => (0, s)
  | some i => tblRead i s

/-- ADD_MCAST (R203). -/
def execAddMcast (vlan super : Bool) (mstate : BitVec 2) (s : State) : Host.Outcome State Fault Refusal :=
  whenCreated s <| withArg s.a.mac s fun addr => withArg s.a.mask0 s fun mask0 =>
  withArg (scopedVid vlan s) s fun vid =>
    let (found, s) := matchAddr addr vid s
    let (old, s) := existingImage (indexOf found) s
    let e := mcastImage s.cfg old vlan super mstate addr vid (portMask s.cfg mask0)
    let (slot, s) := alloc (indexOf found) s
    writeAlloc slot e s

/-- DEL_MCAST (R204). -/
def execDelMcast (vlan : Bool) (s : State) : Host.Outcome State Fault Refusal :=
  whenCreated s <| withArg s.a.mac s fun addr => withArg s.a.mask0 s fun mask0 =>
  withArg (scopedVid vlan s) s fun vid =>
    match matchAddr addr vid s with
    | (none, s) => complete .notFound s
    | (some (i, _), s) =>
      let (e, s) := tblRead i s
      complete .ok (setIndex i (tblWrite i (removePorts s.cfg e (portMask s.cfg mask0)) s))

/-- Whether the VLAN filter of FLUSH_MCAST passes an image (R205). -/
def flushPasses (filter : Option Vid) (e : Image) : Bool :=
  match filter with
  | none => true
  | some vid => getVid e == vid

/-- Whether FLUSH_MCAST exempts an image: SUPER = 1 or the broadcast address (R205, C5). -/
def flushExempt (c : Cfg) (e : Image) : Bool := getF c e .super == 1 || getAddr e == broadcastMac

/-- One round of FLUSH_MCAST (R205), the port mask reduced. -/
def flushEntry (filter : Option Vid) (mask : Word) (i : Nat) (s : State) : State :=
  let (e, s) := tblRead i s
  if !isAddr e then s
  else if !flushPasses filter e then s
  else if !isMcast e then maybeRewrite i e s
  else if flushExempt s.cfg e then tblWrite i e s
  else if getF s.cfg e .portMask &&& mask = 0 then maybeRewrite i e s
  else tblWrite i (removePorts s.cfg e mask) s

/-- FLUSH_MCAST (R205). -/
def execFlushMcast (any : Bool) (s : State) : Host.Outcome State Fault Refusal :=
  whenCreated s <| withArg s.a.mask0 s fun mask0 => withArg (flushFilter any s) s fun filter =>
    complete .ok (forEntries (flushEntry filter (portMask s.cfg mask0)) s.cfg.n 0 s)

end Sys2Proof.Machine
end

