-- ==== Sys2Proof/Machine/Controls.lean ====
section
/-! DEFINITION. The control register decoder: CTRL_GET, CTRL_SET, RATELIMIT_MC and RATELIMIT_BC (spec/46_control.md R270
to R277). -/

namespace Sys2Proof.Machine

/-- Whether a control is global: both strides 0 (R273). -/
def isGlobal (d : Descriptor) : Bool := d.portStride == 0 && d.shiftStride == 0

/-- Whether a control is present in the configuration (R270). -/
def isPresent (c : Cfg) (d : Descriptor) : Bool :=
  match d.presence with
  | .always => true
  | .threadDef => c.hasThreadDef

/-- The place of a control for a port (R273): register offset, bit shift, width. -/
structure CtrlPlace where
  off   : Nat
  shift : Nat
  width : Nat
  deriving DecidableEq, Repr

/-- The checks of R271, before any register access: id, presence, port; then the effective place (R273). -/
def ctrlPlace (port cid : BitVec 5) (s : State) : Except Status CtrlPlace :=
  if 26 < cid.toNat then .error .invalidArgument
  else
    match s.eng.ctrl[cid.toNat]? with
    | none => .error .invalidArgument
    | some d =>
      if !isPresent s.cfg d then .error .unsupported
      else
        let p := if isGlobal d then 0 else port.toNat
        if s.cfg.p ≤ p then .error .invalidArgument
        else .ok { off := d.base + p * d.portStride, shift := d.shift + p * d.shiftStride, width := d.width }

/-- CTRL_GET (R271). -/
def execCtrlGet (port cid : BitVec 5) (s : State) : Host.Outcome State Fault Refusal :=
  whenCreated s <|
    match ctrlPlace port cid s with
    | .error st => complete st s
    | .ok d =>
      match regAt s.cfg d.off with
      | none => refuseOutcome .mmioOffset s
      | some r =>
        let (v, s) := memRead r s
        complete .ok (setValue (readUnder v (maskWord d.width <<< d.shift) >>> d.shift) s)

/-- The value written back with a control's field replaced: `(r & ~(mask(width) << sh)) | (val << sh)` (R272), of `r`
the bits that the write acts on (`k`). -/
def insertField (r : ReadValue) (k : Word) (d : CtrlPlace) (val : Word) : Word :=
  readUnder r (k &&& ~~~(maskWord d.width <<< d.shift)) ||| (val <<< d.shift)

/-- The body of CTRL_SET (R272) with the value given: a status and the state, or the refusal of R62 where the
descriptor's offset names no register. -/
def ctrlSetBody (port cid : BitVec 5) (val : Word) (s : State) : Except RefusalReason (Status × State) :=
  match ctrlPlace port cid s with
  | .error st => .ok (st, s)
  | .ok d =>
    if val &&& ~~~(maskWord d.width) ≠ 0 then .ok (.invalidArgument, s)
    else
      match regAt s.cfg d.off with
      | none => .error .mmioOffset
      | some r =>
        let (v, s) := memRead r s
        .ok (.ok, memWrite r (insertField v (writtenMask s.cfg r) d val) s)

/-- CTRL_SET (R272). -/
def execCtrlSet (port cid : BitVec 5) (s : State) : Host.Outcome State Fault Refusal :=
  whenCreated s <| withArg s.a.value s fun val =>
    match ctrlSetBody port cid val s with
    | .error r => refuseOutcome r s
    | .ok (st, s) => complete st s

/-- The rate-limit setters on a control (R274, R275): the value in units of RL_MIN_PPS, rounded down, and the remainder
reported. -/
def rateLimit (port cid : BitVec 5) (pps : Word) (s : State) : Host.Outcome State Fault Refusal :=
  let v := pps.toNat / rlMinPps
  let rem := pps.toNat % rlMinPps
  if pps ≠ 0 ∧ v = 0 then complete .invalidArgument s
  else
    match ctrlSetBody port cid (BitVec.ofNat 32 v) s with
    | .error r => refuseOutcome r s
    | .ok (.ok, s) => complete .ok (setAux (BitVec.ofNat 32 rem) (setValue (BitVec.ofNat 32 (v * rlMinPps)) s))
    | .ok (st, s) => complete st s

/-- RATELIMIT_MC (R274). -/
def execRatelimitMc (port : BitVec 5) (s : State) : Host.Outcome State Fault Refusal :=
  whenCreated s <| withArg s.a.value s fun pps => rateLimit port mcastLimitId pps s

/-- RATELIMIT_BC (R275). -/
def execRatelimitBc (port : BitVec 5) (s : State) : Host.Outcome State Fault Refusal :=
  whenCreated s <| withArg s.a.value s fun pps => rateLimit port bcastLimitId pps s

end Sys2Proof.Machine
end

