-- ==== Sys2Proof/Machine/Lifecycle.lean ====
section
/-! DEFINITION. Construction, start, stop, status and power loss (spec/47_lifecycle_aging.md R290 to R301;
60_exceptions.md R346). -/

namespace Sys2Proof.Machine

/-! ### START, STOP, STATUS_QUERY -/

/-- `AgingUnits()` (R295): `min((F_REF / 1000000) * AGEOUT_S, 2^AGING_BITS - 1)`. -/
def agingUnits (c : Cfg) : Nat := min (c.fRef / 1000000 * c.ageoutS) (2 ^ agingBits - 1)

/-- A read-modify-write of CONTROL that sets a bit: two micro-steps (R296). The reserved
bits of the value read are dropped by the write (R48), here and below. -/
def setControlBit (b : Nat) (s : State) : State :=
  let (r, s) := memRead .control s
  memWrite .control (readUnder r (namedMask s.cfg .control) ||| bitWord b) s

/-- A read-modify-write of CONTROL that clears a bit: two micro-steps (R297). -/
def clearControlBit (b : Nat) (s : State) : State :=
  let (r, s) := memRead .control s
  memWrite .control (readUnder r (namedMask s.cfg .control &&& ~~~bitWord b)) s

/-- `eng.sw_armed <- b`. -/
def setArmed (b : Bool) (s : State) : State := { s with eng := { s.eng with swArmed := b } }

/-- `eng.started <- b`. -/
def setStarted (b : Bool) (s : State) : State := { s with eng := { s.eng with started := b } }

/-- `AgingStart()` (R296). -/
def agingStart (s : State) : State :=
  match s.eng.agingMode with
  | .off => s
  | .hw => memWrite .agingTimer (BitVec.ofNat 32 (agingUnits s.cfg)) s
  | .sw => setArmed true s

/-- START (R296). -/
def execStart (s : State) : Host.Outcome State Fault Refusal :=
  whenCreated s <|
    let s := memWrite .prescale (BitVec.ofNat 32 (s.cfg.fRef / rlMinPps)) s
    let s := setControlBit enableBit s
    let s := setControlBit clearBit s
    complete .ok (setStarted true (agingStart s))

/-- `Cancel()` (R301): a tick already read completes its write first, then the timer is disarmed (log 13). -/
def cancelTimer (s : State) : State := setArmed false (tickWrite (interleave s))

/-- `AgingStop()` (R297). -/
def agingStop (s : State) : State :=
  match s.eng.agingMode with
  | .off => s
  | .hw => memWrite .agingTimer 0 s
  | .sw => cancelTimer s

/-- The table at STOP: kept or cleared, a free value (R297). -/
def maybeClear (s : State) : State :=
  let (b, s) := drawBool s
  if b then setControlBit clearBit s else s

/-- STOP (R297). -/
def execStop (s : State) : Host.Outcome State Fault Refusal :=
  whenCreated s <|
    complete .ok (setStarted false (clearControlBit enableBit (maybeClear (agingStop s))))

/-- STATUS_QUERY (R298). -/
def execStatusQuery (s : State) : Host.Outcome State Fault Refusal :=
  whenCreated s <|
    if s.cfg.hasStatusReg then
      let (v, s) := memRead .status s
      complete .ok (setValue (readWord v) s)
    else complete .unsupported s

/-! ### CREATE (R290) -/

/-- STATUS.ENTRIES [7:0] (R42). -/
def statusEntries (v : Word) : Nat := (v.extractLsb' 0 8).toNat

/-- STATUS.POLICERS [15:8] (R42). -/
def statusPolicers (v : Word) : Nat := (v.extractLsb' 8 8).toNat

/-- The entry count of R290, none for CREATE_ZERO_COUNT; `status` is what the instance's STATUS holds. -/
def entryCount (c : CreateRequest) (v : Variant) (status : Word) : Option Nat :=
  match c.entryOverride with
  | some n => some n
  | none =>
    if v.entries ≠ 0 then some v.entries
    else if !v.hasStatusReg then none
    else if statusEntries status = 0 then none
    else some (statusEntries status * 1024)

/-- The policer count check of R290 fails. -/
def policerCountMissing (c : CreateRequest) (v : Variant) (status : Word) : Bool :=
  v.hasStatusReg && v.policers == 0 && c.policerOverride.isNone && statusPolicers status == 0

/-- The configuration CREATE fixes. -/
def createCfg (c : CreateRequest) (v : Variant) (n : Nat) : Cfg :=
  { n := n, p := c.p, layout := v.layout, hasStatusReg := v.hasStatusReg, hasHwAutoaging := v.hasHwAutoaging,
    hasThreadDef := v.hasThreadDef, fRef := c.fRef, ageoutS := c.ageoutS, regOff := v.regOff,
    agingPass := c.agingPass }

/-- The aging mode of a configuration (R25, R290). -/
def agingModeOf (c : Cfg) : AgingMode :=
  if c.ageoutS = 0 then .off else if c.hasHwAutoaging then .hw else .sw

/-- The end of a successful CREATE: the configuration is fixed and the engine exists (R290). It writes no register and
does not touch the table. -/
def install (c : Cfg) (s : State) : State :=
  { s with
    cfg := c
    eng := { s.eng with
      ctrl := ctrlTable c, untagVid := 0, swArmed := false, swPending := none, agingMode := agingModeOf c,
      started := false, created := true }
    lastCreate := some .created }

/-- A failed CREATE: no other state changed (R290, R336). -/
def createFailed (o : CreateOutcome) (s : State) : State := { s with lastCreate := some o }

/-- `n` entries redrawn from index `i` on, from the free values `k` on. -/
def redrawnTable : Nat → Nat → Nat → Table → Table
  | 0, _, _, t => t
  | n + 1, i, k, t => redrawnTable n (i + 1) (k + 3) (Table.store t i (drawnImage k))

/-- Every one of `n` entries is redrawn (R346, R360). -/
def redrawTable (n : Nat) (s : State) : State :=
  { s with
    table := redrawnTable n 0 s.drawCount s.table, tableLost := false, drawCount := s.drawCount + 3 * n }

/-- The table when CREATE fixes its number of entries: what a POWER_LOSS before CREATE left to be redrawn is redrawn
(R346; log 15), and otherwise the table is as it was (R290: CREATE does not touch the table). -/
def settleTable (n : Nat) (s : State) : State := if s.tableLost then redrawTable n s else s

/-- CREATE (R290), with the refusals RECREATE (R299) and BAD_CONFIG (R6; log 10). -/
def create (c : CreateRequest) (identity : String) (s : State) : State :=
  if s.eng.created then refuse .recreate s
  else
    match c.variants.lookup identity with
    | none => createFailed .unknownIdentity s
    | some v =>
      match entryCount c v s.chip.statusValue with
      | none => createFailed .zeroCount s
      | some n =>
        if policerCountMissing c v s.chip.statusValue then createFailed .zeroCount s
        else if !cfgWf (createCfg c v n) then refuse .badConfig s
        else
          let (fails, s) := drawBool s
          if fails then createFailed .alloc s else install (createCfg c v n) (settleTable n s)

/-! ### POWER_LOSS (R346) -/

/-- The register fields redrawn as at power-on (R360), from the free values `k` on. -/
def redrawnRegs (k : Nat) : Regs :=
  { control := Config.draw k &&& controlRw
    prescale := Config.draw (k + 1) &&& maskWord prescaleBits
    period := (Config.draw (k + 2)).setWidth 24
    unknownVlan := Config.draw (k + 3) &&& 0x3F3F3F3F
    portctl := Vector.ofFn fun i => Config.draw (k + 13 + i.val) &&& 0xFFFF283F
    unkMember := Config.draw (k + 4)
    unkUnreg := Config.draw (k + 5)
    unkReg := Config.draw (k + 6)
    unkUntag := Config.draw (k + 7)
    maskMux := Vector.ofFn fun i => Config.draw (k + 33 + i.val)
    threadDef := Config.draw (k + 8) &&& 0x0000803F }

/-- Every register field, TBLBUF and age_cnt redrawn as at power-on (R346, R360). -/
def redrawRegs (s : State) : State :=
  let k := s.drawCount
  { s with
    regs := redrawnRegs k, tblBuf := drawnImage (k + 9), ageCnt := (Config.draw (k + 12)).setWidth 24
    drawCount := k + 41 }

/-- POWER_LOSS while not started (R346): every register field, every entry, TBLBUF and age_cnt are redrawn; `eng`, `a`
and `res` are kept. Before CREATE the number of entries is not fixed (R299), so the redraw of the entries is noted and
made when CREATE fixes it; nothing can read the table before (log 15). -/
def powerLoss (s : State) : State :=
  let s := redrawRegs s
  if s.eng.created then redrawTable s.cfg.n s else { s with tableLost := true }

/-! ### The owner's argument writes (R23) -/

/-- The owner writes an argument register. -/
def writeArg (w : ArgWrite) (s : State) : State :=
  { s with a :=
      match w with
      | .mac v => { s.a with mac := some v }
      | .vid v => { s.a with vid := some v }
      | .mask0 v => { s.a with mask0 := some v }
      | .mask1 v => { s.a with mask1 := some v }
      | .mask2 v => { s.a with mask2 := some v }
      | .mask3 v => { s.a with mask3 := some v }
      | .value v => { s.a with value := some v }
      | .img v => { s.a with img := some v }
      | .buf v => { s.a with buf := some v } }

end Sys2Proof.Machine
end

