-- ==== Sys2Proof/Machine/Mmio.lean ====
section
/-! DEFINITION. The owner's register accesses MMIO_READ and MMIO_WRITE (spec/41_register_interface.md R120 to R125;
20_memory.md R61, R62). An access is one step: no other agent steps inside it. -/

namespace Sys2Proof.Machine

/-- The register an access names, or the refusal of R62 (a wrong width is MMIO_WIDTH, an offset that is misaligned or
names no register MMIO_OFFSET; log 12). -/
def accessedReg (width : AccessWidth) (off : Word) (c : Cfg) : Except RefusalReason Reg :=
  if !width.wf then .error .mmioWidth
  else if !alignedOffset off then .error .mmioOffset
  else
    match regAt c off.toNat with
    | none => .error .mmioOffset
    | some r => .ok r

/-- MMIO_READ (R120): the value read is returned to the owner. -/
def execMmioRead (width : AccessWidth) (off : Word) (s : State) : Host.Outcome State Fault Refusal :=
  whenCreated s <|
    match accessedReg width off s.cfg with
    | .error e => refuseOutcome e s
    | .ok r =>
      let (v, s) := readReg r s
      .next { s with busData := some v }

/-- MMIO_WRITE (R121 to R125). -/
def execMmioWrite (width : AccessWidth) (off v : Word) (s : State) : Host.Outcome State Fault Refusal :=
  whenCreated s <|
    match accessedReg width off s.cfg with
    | .error e => refuseOutcome e s
    | .ok r =>
      match writeFault r v s with
      | some f => faultOutcome f s
      | none => .next (writeReg r v s)

end Sys2Proof.Machine
end

