-- ==== Sys2Proof/Machine/Search.lean ====
section
/-! DEFINITION. The search commands MATCH_UCAST, MATCH_VLAN, MATCH_FREE and FIND_AGEABLE (spec/43_search.md R185 to
R188). -/

namespace Sys2Proof.Machine

/-- The end of MATCH_UCAST and MATCH_VLAN: NotFound, or the index and the image as read by the scan (R185, R186). -/
def reportMatch (found : Option (Nat × Image)) (s : State) : Host.Outcome State Fault Refusal :=
  match found with
  | none => complete .notFound s
  | some (i, e) => complete .ok (setIndex i (setImg e s))

/-- The end of MATCH_FREE and FIND_AGEABLE: NotFound, or the index (R187, R188). -/
def reportIndex (found : Option (Nat × Image)) (s : State) : Host.Outcome State Fault Refusal :=
  match found with
  | none => complete .notFound s
  | some (i, _) => complete .ok (setIndex i s)

/-- MATCH_UCAST (R185). -/
def execMatchUcast (s : State) : Host.Outcome State Fault Refusal :=
  whenCreated s <| withArg s.a.mac s fun addr => withArg s.a.vid s fun vid =>
    let (found, s) := matchAddr addr vid s
    reportMatch found s

/-- MATCH_VLAN (R186). -/
def execMatchVlan (s : State) : Host.Outcome State Fault Refusal :=
  whenCreated s <| withArg s.a.vid s fun vid =>
    let (found, s) := matchVlan vid s
    reportMatch found s

/-- MATCH_FREE (R187). -/
def execMatchFree (s : State) : Host.Outcome State Fault Refusal :=
  whenCreated s <|
    let (found, s) := matchFree s
    reportIndex found s

/-- FIND_AGEABLE (R188). -/
def execFindAgeable (s : State) : Host.Outcome State Fault Refusal :=
  whenCreated s <|
    let (found, s) := findAgeable s
    reportIndex found s

end Sys2Proof.Machine
end

