-- ==== Sys2Proof/Machine/TablePort.lean ====
section
/-! DEFINITION. The table-port commands TBL_READ, TBL_WRITE, DUMP and RESTORE (spec/42_codec_table_port.md R160 to
R163). -/

namespace Sys2Proof.Machine

/-- TBL_READ (R160). -/
def execTblRead (s : State) : Host.Outcome State Fault Refusal :=
  whenCreated s <| withArg s.a.value s fun idx =>
    if indexFault idx.toNat s then faultOutcome .tableIndex s
    else
      let (e, s) := tblRead idx.toNat s
      complete .ok (setIndex idx.toNat (setImg e s))

/-- TBL_WRITE (R161). -/
def execTblWrite (s : State) : Host.Outcome State Fault Refusal :=
  whenCreated s <| withArg s.a.value s fun idx => withArg s.a.img s fun e =>
    if indexFault idx.toNat s then faultOutcome .tableIndex s
    else complete .ok (setIndex idx.toNat (tblWrite idx.toNat e s))

/-- The three words of an image in buffer order: W2, W1, W0 (R63, R162). -/
def imageWords (e : Image) : List Word := [e.extractLsb' 64 32, e.extractLsb' 32 32, e.extractLsb' 0 32]

/-- The loop of DUMP over `n` entries from index `i` on (R162). -/
def dumpFrom : Nat → Nat → State → List Word × State
  | 0, _, s => ([], s)
  | n + 1, i, s =>
    let (e, s) := tblRead i s
    let (ws, s) := dumpFrom n (i + 1) s
    (imageWords e ++ ws, s)

/-- DUMP (R162). -/
def execDump (s : State) : Host.Outcome State Fault Refusal :=
  whenCreated s <|
    let (ws, s) := dumpFrom s.cfg.n 0 s
    complete .ok (setBuf ws s)

/-- The loop of RESTORE from index `i` on: three words an entry, W2, W1, W0 (R163). -/
def restoreFrom : List Word → Nat → State → State
  | w2 :: w1 :: w0 :: ws, i, s => restoreFrom ws (i + 1) (tblWrite i (w2 ++ w1 ++ w0) s)
  | [], _, s => s
  | [_], _, s => s
  | [_, _], _, s => s

/-- RESTORE (R163). -/
def execRestore (s : State) : Host.Outcome State Fault Refusal :=
  whenCreated s <| withArg s.a.buf s fun ws =>
    if ws.length = 3 * s.cfg.n then complete .ok (restoreFrom ws 0 s)
    else complete .invalidArgument s

end Sys2Proof.Machine
end

