-- ==== Sys2Proof/Machine/VlanEntries.lean ====
section
/-! DEFINITION. The VLAN entry commands ADD_VLAN, VLAN_ADD_MODIFY, VLAN_DEL_MODIFY, DEL_VLAN, SET_UNREG_MCAST and
SET_ALLMULTI, and their helpers (spec/45_vlan_entries.md R230 to R245). -/

namespace Sys2Proof.Machine

/-- One mask-bank read reduced to P bits, `MemRead(VLAN_MASK_MUX[k], 4) & mask(P)` (R232). -/
def readMux (k : Nat) (s : State) : Word × State :=
  let (v, s) := memRead (.maskMux k) s
  (readUnder v (portMaskAll s.cfg), s)

/-- `GetFlood(E)`: the registered and the unregistered flood mask of a VLAN image (R232). -/
def getFlood (e : Image) (s : State) : (Word × Word) × State :=
  if indirect s.cfg then
    let (k, s) := vlanGet e .regMcastIdx s
    let (reg, s) := readMux k.toNat s
    let (k, s) := vlanGet e .unregMcastIdx s
    let (unreg, s) := readMux k.toNat s
    ((reg, unreg), s)
  else
    let (reg, s) := vlanGet e .regMcastMsk s
    let (unreg, s) := vlanGet e .unregMcastMsk s
    ((reg, unreg), s)

/-- `SetFlood(E, reg, unreg)` (R233); with equal indices the second write wins. -/
def setFlood (e : Image) (reg unreg : Word) (s : State) : Image × State :=
  if indirect s.cfg then
    let (k, s) := vlanGet e .regMcastIdx s
    let s := memWrite (.maskMux k.toNat) reg s
    let (k, s) := vlanGet e .unregMcastIdx s
    (e, memWrite (.maskMux k.toNat) unreg s)
  else
    let (e, s) := vlanSet e .regMcastMsk reg s
    vlanSet e .unregMcastMsk unreg s

/-- The whole-VLAN delete: the untag mask and bit cleared, TYPE = FREE (R235, R243). -/
def freeVlan (e : Image) (vid : Vid) (s : State) : Image × State :=
  let (e, s) := setUntag e vid 0 s
  (setType e .free, s)

/-- `DelModify(E, vid, pm)` (R235). -/
def delModify (e : Image) (vid : Vid) (pm : Word) (s : State) : Image × State :=
  let (old, s) := vlanGet e .memberList s
  let mem := old &&& ~~~pm
  if mem = 0 then freeVlan e vid s
  else
    let (untag, s) := vlanGet e .forceUntagMsk s
    let ((reg, unreg), s) := getFlood e s
    let (e, s) := setUntag e vid (untag &&& mem) s
    let (e, s) := setFlood e (reg &&& mem) (unreg &&& mem) s
    vlanSet e .memberList mem s

/-- The masks of a VLAN entry that ADD_VLAN and VLAN_ADD_MODIFY build: members, untag, registered and unregistered
flood. -/
structure VlanMasks where
  mem   : Word
  untag : Word
  reg   : Word
  unreg : Word
  deriving DecidableEq, Repr

/-- The image part of R240 once a slot is found: TYPE, VID, untag mask, NU index (R234), flood masks, members. -/
def buildVlan (e : Image) (vid : Vid) (m : VlanMasks) (s : State) : Image × State :=
  let e := setVid (setType e .vlan) vid
  let (e, s) := setUntag e vid m.untag s
  let (e, s) := if indirect s.cfg then vlanSet e .unregMcastIdx 1 s else (e, s)
  let (e, s) := setFlood e m.reg m.unreg s
  vlanSet e .memberList m.mem s

/-- The pseudocode of R240 with the masks given. -/
def addVlanWith (vid : Vid) (m : VlanMasks) (s : State) : Host.Outcome State Fault Refusal :=
  let (found, s) := matchVlan vid s
  let (e, s) := existingImage (indexOf found) s
  match alloc (indexOf found) s with
  | (none, s) => complete .resourceExhausted s
  | (some i, s) =>
    let (e, s) := buildVlan e vid m s
    complete .ok (setIndex i (tblWrite i e s))

/-- ADD_VLAN (R240). -/
def execAddVlan (s : State) : Host.Outcome State Fault Refusal :=
  whenCreated s <| withArg s.a.vid s fun vid =>
  withArg s.a.mask0 s fun m0 => withArg s.a.mask1 s fun m1 => withArg s.a.mask2 s fun m2 => withArg s.a.mask3 s fun m3 =>
    addVlanWith vid
      { mem := portMask s.cfg m0, untag := portMask s.cfg m1, reg := portMask s.cfg m2, unreg := portMask s.cfg m3 } s

/-- The masks of the existing VLAN entry, all zero without one (R241). -/
def existingMasks (found : Option Nat) (s : State) : VlanMasks × State :=
  match found with
  | none => ({ mem := 0, untag := 0, reg := 0, unreg := 0 }, s)
  | some i =>
    let (e, s) := tblRead i s
    let (mem, s) := vlanGet e .memberList s
    let (untag, s) := vlanGet e .forceUntagMsk s
    let ((reg, unreg), s) := getFlood e s
    ({ mem := mem, untag := untag, reg := reg, unreg := unreg }, s)

/-- `(old & ~pm) | (new & pm)` (R241). -/
def replaceUnder (old new pm : Word) : Word := (old &&& ~~~pm) ||| (new &&& pm)

/-- The masks VLAN_ADD_MODIFY writes, from the existing ones and the operands (R241). -/
def modifiedMasks (old new : VlanMasks) : VlanMasks :=
  { mem := old.mem ||| new.mem
    untag := replaceUnder old.untag new.untag new.mem
    reg := replaceUnder old.reg new.reg new.mem
    unreg := replaceUnder old.unreg new.unreg new.mem }

/-- VLAN_ADD_MODIFY (R241). -/
def execVlanAddModify (s : State) : Host.Outcome State Fault Refusal :=
  whenCreated s <| withArg s.a.vid s fun vid =>
  withArg s.a.mask0 s fun m0 => withArg s.a.mask1 s fun m1 => withArg s.a.mask2 s fun m2 => withArg s.a.mask3 s fun m3 =>
    let new : VlanMasks :=
      { mem := portMask s.cfg m0, untag := portMask s.cfg m1, reg := portMask s.cfg m2, unreg := portMask s.cfg m3 }
    let (found, s) := matchVlan vid s
    let (old, s) := existingMasks (indexOf found) s
    addVlanWith vid (modifiedMasks old new) s

/-- VLAN_DEL_MODIFY (R242). -/
def execVlanDelModify (s : State) : Host.Outcome State Fault Refusal :=
  whenCreated s <| withArg s.a.vid s fun vid => withArg s.a.mask0 s fun m0 =>
    match matchVlan vid s with
    | (none, s) => complete .notFound s
    | (some (i, _), s) =>
      let (e, s) := tblRead i s
      let (e, s) := delModify e vid (portMask s.cfg m0) s
      complete .ok (setIndex i (tblWrite i e s))

/-- The image DEL_VLAN writes (R243): the whole-VLAN delete, or DelModify with the host port never stripped. -/
def delVlanImage (force : Bool) (e : Image) (vid : Vid) (mask : Word) (s : State) : Image × State :=
  let (mem, s) := vlanGet e .memberList s
  if force || mask == 0 || (mem &&& ~~~mask) == 0 then freeVlan e vid s
  else delModify e vid (mask &&& ~~~hostBit) s

/-- DEL_VLAN (R243). -/
def execDelVlan (force : Bool) (s : State) : Host.Outcome State Fault Refusal :=
  whenCreated s <| withArg s.a.vid s fun vid => withArg s.a.mask0 s fun m0 =>
    match matchVlan vid s with
    | (none, s) => complete .notFound s
    | (some (i, _), s) =>
      let (e, s) := tblRead i s
      let (e, s) := delVlanImage force e vid (portMask s.cfg m0) s
      complete .ok (setIndex i (tblWrite i e s))

/-- `EN ? (u | m) : (u & ~m)` (R244, R245). -/
def toggleMask (en : Bool) (u m : Word) : Word := if en then u ||| m else u &&& ~~~m

/-- The unregistered flood change of one VLAN entry, through the mask bank when INDIRECT (R244, R245). -/
def toggleUnreg (en : Bool) (m : Word) (i : Nat) (e : Image) (s : State) : State :=
  if indirect s.cfg then
    let (k, s) := vlanGet e .unregMcastIdx s
    let (u, s) := readMux k.toNat s
    let s := memWrite (.maskMux k.toNat) (toggleMask en u m) s
    maybeRewrite i e s
  else
    let (u, s) := vlanGet e .unregMcastMsk s
    let (e, s) := vlanSet e .unregMcastMsk (toggleMask en u m) s
    tblWrite i e s

/-- One round of SET_UNREG_MCAST (R244). -/
def unregEntry (en : Bool) (mask : Word) (i : Nat) (s : State) : State :=
  let (e, s) := tblRead i s
  if isVlan e then toggleUnreg en mask i e s else s

/-- SET_UNREG_MCAST (R244). -/
def execSetUnregMcast (en : Bool) (s : State) : Host.Outcome State Fault Refusal :=
  whenCreated s <| withArg s.a.mask0 s fun m0 =>
    complete .ok (forEntries (unregEntry en (portMask s.cfg m0)) s.cfg.n 0 s)

/-- One round of SET_ALLMULTI (R245). -/
def allmultiEntry (en any : Bool) (port : BitVec 5) (i : Nat) (s : State) : State :=
  let (e, s) := tblRead i s
  if isVlan e then
    if any then toggleUnreg en hostBit i e s
    else
      let (mem, s) := vlanGet e .memberList s
      if mem.getLsbD port.toNat then toggleUnreg en hostBit i e s else s
  else s

/-- SET_ALLMULTI (R245). -/
def execSetAllmulti (en any : Bool) (port : BitVec 5) (s : State) : Host.Outcome State Fault Refusal :=
  whenCreated s <|
    if any || portOk s.cfg port then complete .ok (forEntries (allmultiEntry en any port) s.cfg.n 0 s)
    else complete .invalidArgument s

end Sys2Proof.Machine
end

