-- ==== Sys2Proof/Machine/Dispatch.lean ====
section
/-! DEFINITION. The dispatch: one arm per constructor of Instr, each a direct call of that instruction's meaning. -/

namespace Sys2Proof.Machine

def exec (i : Instr) (s : State) : Host.Outcome State Fault Refusal :=
  match i with
  | .tblRead => Sys2Proof.Machine.execTblRead s
  | .tblWrite => Sys2Proof.Machine.execTblWrite s
  | .dump => Sys2Proof.Machine.execDump s
  | .restore => Sys2Proof.Machine.execRestore s
  | .matchUcast => Sys2Proof.Machine.execMatchUcast s
  | .matchVlan => Sys2Proof.Machine.execMatchVlan s
  | .matchFree => Sys2Proof.Machine.execMatchFree s
  | .findAgeable => Sys2Proof.Machine.execFindAgeable s
  | .addUcast vlan secure blocked port => Sys2Proof.Machine.execAddUcast vlan secure blocked port s
  | .delUcast vlan => Sys2Proof.Machine.execDelUcast vlan s
  | .addMcast vlan super mstate => Sys2Proof.Machine.execAddMcast vlan super mstate s
  | .delMcast vlan => Sys2Proof.Machine.execDelMcast vlan s
  | .flushMcast any => Sys2Proof.Machine.execFlushMcast any s
  | .addVlan => Sys2Proof.Machine.execAddVlan s
  | .vlanAddModify => Sys2Proof.Machine.execVlanAddModify s
  | .vlanDelModify => Sys2Proof.Machine.execVlanDelModify s
  | .delVlan force => Sys2Proof.Machine.execDelVlan force s
  | .setUnregMcast en => Sys2Proof.Machine.execSetUnregMcast en s
  | .setAllmulti en any port => Sys2Proof.Machine.execSetAllmulti en any port s
  | .ctrlGet port cid => Sys2Proof.Machine.execCtrlGet port cid s
  | .ctrlSet port cid => Sys2Proof.Machine.execCtrlSet port cid s
  | .ratelimitMc port => Sys2Proof.Machine.execRatelimitMc port s
  | .ratelimitBc port => Sys2Proof.Machine.execRatelimitBc port s
  | .start => Sys2Proof.Machine.execStart s
  | .stop => Sys2Proof.Machine.execStop s
  | .statusQuery => Sys2Proof.Machine.execStatusQuery s
  | .mmioRead width off => Sys2Proof.Machine.execMmioRead width off s
  | .mmioWrite width off v => Sys2Proof.Machine.execMmioWrite width off v s

end Sys2Proof.Machine
end

