-- ==== Sys2Proof/Machine/Fetch.lean ====
section
/-! DEFINITION. What happens between commands: presenting a request (spec/60_exceptions.md R332), the owner's other moves
(R349) and the agents' steps (R341), the end of a run (R348), and placing a command word for the next step. -/

namespace Sys2Proof.Machine

/-- The owner presents a request to a machine that is not faulted (R332 steps 1 and 2): before CREATE it is refused
NOT_CREATED, an illegal word is refused ILLEGAL_COMMAND, and a decoded instruction runs. -/
def presentRequest (r : Request) (s : State) : Host.Outcome State Fault Refusal :=
  if s.eng.created then
    match decodeRequest r with
    | .error _ => refuseOutcome .illegalCommand s
    | .ok i => exec i s
  else refuseOutcome .notCreated s

/-- One move between commands. -/
def runMove (m : Move) (s : State) : Host.Outcome State Fault Refusal :=
  match m with
  | .request r => presentRequest r s
  | .arg w => .next (writeArg w s)
  | .create c identity => .next (create c identity s)
  | .powerLoss => if s.eng.started then .refused .powerLossWhileStarted else .next (powerLoss s)
  | .agent a => .next (agentStep a s)

/-- A move that the owner presents (R349): every move but a step of another agent. -/
def ownerMove : Move → Bool
  | .request _ | .arg _ | .create _ _ | .powerLoss => true
  | .agent _ => false

/-- The state is the end of a run (R348): no tick is pending, the owner presents nothing more, and the machine has not
faulted (R333). No command is in progress between two steps of the model (log 4). It says nothing of the steps of other
agents that the agenda may still hold (log 24). -/
def runEnded (s : State) : Bool := !s.faulted && s.eng.swPending.isNone && !s.agenda.any ownerMove

/-- The step with an empty agenda: at the end of a run the machine idles; before it, the tick that was read completes its
write, which is all that may still be due (R341, R348; log 24). -/
def idle (s : State) : State := if runEnded s then s else tickWrite s

/-- The next move of the agenda (log 5); with an empty agenda the owner presents nothing more. -/
def nextMove (s : State) : Host.Outcome State Fault Refusal :=
  match s.agenda with
  | [] => .next (idle s)
  | m :: later => runMove m { s with agenda := later }

/-- One step: a faulted machine is quiescent (R333). -/
def stepOnce (s : State) : Host.Outcome State Fault Refusal :=
  if s.faulted then .fault .quiescent else nextMove s

/-- The machine with an engine: as it is when one was created, else with the engine of `Config.cfg0` installed
(log 5). -/
def ensureCreated (s : State) : State :=
  if s.eng.created then s else install Config.cfg0 (settleTable Config.cfg0.n s)

/-- The machine with the command word of a table row as its very next move (log 5). -/
def placeWord (nbits w : Nat) (s : State) : State :=
  match tableRequest nbits w with
  | none => s
  | some r => { ensureCreated s with agenda := .request r :: s.agenda }

end Sys2Proof.Machine
end

