-- ==== Sys2Proof/Safety.lean ====
section
/-! DEFINITION. The terms that claims about the machine use: the launch premises of R363, what a command's arguments are,
the table as the searches see it, and the invariant of the machine. -/

namespace Sys2Proof.Machine

/-! ### Premises (R363) -/

/-- `NoFault(s)` (R363). -/
abbrev NoFault (s : State) : Prop := s.faulted = false ∧ s.refused = false

/-- `Created(s)` (R363). -/
abbrev Created (s : State) : Prop := s.eng.created = true

/-- `Quiet(s)` (R363). No command is in progress between two steps of the model. -/
abbrev Quiet (s : State) : Prop := s.eng.swPending = none

/-- `Isolated(s)` (R363): ENABLE = 0; PERIOD = 0 when HAS_HW_AUTOAGING; sw_armed = false when aging_mode = SW. -/
abbrev Isolated (s : State) : Prop :=
  s.regs.control.getLsbD enableBit = false ∧ (s.cfg.hasHwAutoaging = true → s.regs.period = 0) ∧
    (s.eng.agingMode = .sw → s.eng.swArmed = false)

/-- `CleanStarted(s)` (R363), the arguments apart: created, no fault, quiet, started, every entry 0. -/
def CleanStarted (s : State) : Prop :=
  Created s ∧ NoFault s ∧ Quiet s ∧ s.eng.started = true ∧ ∀ i, Table.entry s.table i = 0

/-- A request can run: the engine is created and not faulted. -/
abbrev Live (s : State) : Prop := s.faulted = false ∧ s.eng.created = true

/-- The schedule in which no other agent steps inside the command (spec/95_test_vectors.md). -/
abbrev Alone (s : State) : Prop := s.sched = []

/-- A request can run and no other agent steps inside it. -/
abbrev Ready (s : State) : Prop := Live s ∧ Alone s

/-! ### Arguments (R82, R83) -/

/-- Every argument register the command reads holds a value (R82, R83). -/
def argsDefined (i : Instr) (s : State) : Bool :=
  match i with
  | .tblRead => s.a.value.isSome
  | .tblWrite => s.a.value.isSome && s.a.img.isSome
  | .restore => s.a.buf.isSome
  | .matchUcast => s.a.mac.isSome && s.a.vid.isSome
  | .matchVlan => s.a.vid.isSome
  | .addUcast vlan _ _ _ => s.a.mac.isSome && (!vlan || s.a.vid.isSome)
  | .delUcast vlan => s.a.mac.isSome && (!vlan || s.a.vid.isSome)
  | .addMcast vlan _ _ => s.a.mac.isSome && s.a.mask0.isSome && (!vlan || s.a.vid.isSome)
  | .delMcast vlan => s.a.mac.isSome && s.a.mask0.isSome && (!vlan || s.a.vid.isSome)
  | .flushMcast any => s.a.mask0.isSome && (any || s.a.vid.isSome)
  | .addVlan | .vlanAddModify =>
    s.a.vid.isSome && s.a.mask0.isSome && s.a.mask1.isSome && s.a.mask2.isSome && s.a.mask3.isSome
  | .vlanDelModify | .delVlan _ => s.a.vid.isSome && s.a.mask0.isSome
  | .setUnregMcast _ => s.a.mask0.isSome
  | .ctrlSet _ _ | .ratelimitMc _ | .ratelimitBc _ => s.a.value.isSome
  | .dump | .matchFree | .findAgeable | .setAllmulti _ _ _ | .ctrlGet _ _ | .start | .stop | .statusQuery
  | .mmioRead _ _ | .mmioWrite _ _ _ => true

/-! ### The table as the searches see it -/

/-- The first index below `n` whose entry satisfies `pred`. -/
def firstIndex (pred : Image → Bool) (n : Nat) (t : Table) : Option Nat :=
  (List.range n).find? fun i => pred (Table.entry t i)

/-- The slot an add command takes (R189): the first match, else the first FREE entry, else the first ageable one. -/
def slotFor (pred : Image → Bool) (n : Nat) (t : Table) : Option Nat :=
  match firstIndex pred n t with
  | some i => some i
  | none =>
    match firstIndex isFree n t with
    | some i => some i
    | none => firstIndex ageable n t

/-- The words of the whole table in buffer order (R63, R162). -/
def tableWords (n : Nat) (t : Table) : List Word := (List.range n).flatMap fun i => imageWords (Table.entry t i)

/-! ### The table as the VLAN commands see it -/

/-- A VLAN field of an image, 0 where the layout does not allow the field. -/
def vlanFieldOf (c : Cfg) (e : Image) (id : VlanField) : Word :=
  match vlanPlace c id with
  | some d => getField e d.1 d.2
  | none => 0

/-- The mask-bank register `k`, reduced to P bits (R232). -/
def muxMask (c : Cfg) (mux : Vector Word 8) (k : Nat) : Word := (mux[k]?).getD 0 &&& portMaskAll c

/-- The four masks of a VLAN entry: members and untag inline, the two flood masks inline or, when INDIRECT, in the mask
bank registers the entry's indices name (R33, R44, R232). -/
def vlanMasksOf (c : Cfg) (mux : Vector Word 8) (e : Image) : VlanMasks :=
  { mem := vlanFieldOf c e .memberList
    untag := vlanFieldOf c e .forceUntagMsk
    reg := if indirect c then muxMask c mux (vlanFieldOf c e .regMcastIdx).toNat else vlanFieldOf c e .regMcastMsk
    unreg :=
      if indirect c then muxMask c mux (vlanFieldOf c e .unregMcastIdx).toNat else vlanFieldOf c e .unregMcastMsk }

/-- The masks of ADD_VLAN's operands, reduced to P bits (R83). -/
def operandMasks (c : Cfg) (m0 m1 m2 m3 : Word) : VlanMasks :=
  { mem := portMask c m0, untag := portMask c m1, reg := portMask c m2, unreg := portMask c m3 }

/-- What the masks of a written VLAN entry read as: with equal indices the registered and the unregistered flood masks
share one bank register and the second write wins (R233). -/
def masksWritten (c : Cfg) (e : Image) (m : VlanMasks) : VlanMasks :=
  if indirect c = true ∧ vlanFieldOf c e .regMcastIdx = vlanFieldOf c e .unregMcastIdx then { m with reg := m.unreg }
  else m

/-- The image of the first VLAN entry for `vid`, or 0 (R240). -/
def vlanImageOf (vid : Vid) (s : State) : Image :=
  match firstIndex (vlanMatches vid) s.cfg.n s.table with
  | some i => Table.entry s.table i
  | none => 0

/-- The masks of the existing VLAN entry for `vid`, all zero without one (R241). -/
def vlanMasksFor (vid : Vid) (s : State) : VlanMasks :=
  match firstIndex (vlanMatches vid) s.cfg.n s.table with
  | some i => vlanMasksOf s.cfg s.regs.maskMux (Table.entry s.table i)
  | none => { mem := 0, untag := 0, reg := 0, unreg := 0 }

/-- All four masks narrowed to the surviving members (R235). -/
def narrowed (m : VlanMasks) (mem : Word) : VlanMasks :=
  { mem := mem, untag := m.untag &&& mem, reg := m.reg &&& mem, unreg := m.unreg &&& mem }

/-- The images agree on every bit outside the given fields, as (start, width). -/
def KeptOutside (places : List (Nat × Nat)) (old e : Image) : Prop :=
  ∀ b, (∀ d ∈ places, ¬ (d.1 ≤ b ∧ b < d.1 + d.2)) → e.getLsbD b = old.getLsbD b

/-- The mask fields of a VLAN entry that the layout holds inline (R33). -/
def vlanMaskPlaces (c : Cfg) : List (Nat × Nat) :=
  ([.memberList, .forceUntagMsk, .regMcastMsk, .unregMcastMsk] : List VlanField).filterMap (vlanPlace c)

/-- The fields that ADD_VLAN writes in an image (R240): TYPE, VID, the inline masks, and UNREG_MCAST_IDX when INDIRECT. -/
def vlanWrittenPlaces (c : Cfg) : List (Nat × Nat) :=
  [(60, 2), (48, 12)] ++ vlanMaskPlaces c ++ (vlanPlace c .unregMcastIdx).toList

/-- The bank keeps every register but `i` and `j`; when the masks are inline it keeps all of them (R233). -/
def BankKept (c : Cfg) (before after : Vector Word 8) (i j : Word) : Prop :=
  (indirect c = false → after = before) ∧ ∀ x, x ≠ i.toNat → x ≠ j.toNat → after[x]? = before[x]?

/-- What ADD_VLAN and VLAN_ADD_MODIFY leave (R240): from the image `old` and the bank `before`, the image `e` and the bank
`after` of a VLAN entry for `vid` with the masks `m`. UNREG_MCAST_IDX is 1 and REG_MCAST_IDX as it was when INDIRECT
(R234); the other bank registers and the other bits of the image are kept. -/
def VlanWritten (c : Cfg) (vid : Vid) (m : VlanMasks) (before after : Vector Word 8) (old e : Image) : Prop :=
  entryType e = .vlan ∧ getVid e = vid ∧ vlanMasksOf c after e = masksWritten c e m ∧
  (indirect c = true → vlanFieldOf c e .unregMcastIdx = 1 ∧
    vlanFieldOf c e .regMcastIdx = vlanFieldOf c old .regMcastIdx) ∧
  BankKept c before after (vlanFieldOf c old .regMcastIdx) 1 ∧ KeptOutside (vlanWrittenPlaces c) old e

/-- What a VLAN entry narrowed to the surviving members `mem` becomes (R235): from the image `old` and the bank `before`,
the image `e` and the bank `after`. The indices, the bank registers they do not name, and the bits of the image outside
the inline masks are kept. -/
def VlanNarrowed (c : Cfg) (mem : Word) (before after : Vector Word 8) (old e : Image) : Prop :=
  entryType e = .vlan ∧ getVid e = getVid old ∧
  vlanMasksOf c after e = narrowed (vlanMasksOf c before old) mem ∧
  vlanFieldOf c e .regMcastIdx = vlanFieldOf c old .regMcastIdx ∧
  vlanFieldOf c e .unregMcastIdx = vlanFieldOf c old .unregMcastIdx ∧
  BankKept c before after (vlanFieldOf c old .regMcastIdx) (vlanFieldOf c old .unregMcastIdx) ∧
  KeptOutside (vlanMaskPlaces c) old e

/-- A freed VLAN image (R235, D12): FORCE_UNTAG_MSK = 0 and TYPE = FREE, every other bit kept. -/
def freedVlan (c : Cfg) (old : Image) : Image :=
  match vlanPlace c .forceUntagMsk with
  | some d => setType (setField old d.1 d.2 0) .free
  | none => setType old .free

/-! ### The invariant of the machine -/

/-- What every reachable state keeps: the table is canonical and lists indices below N; a created engine has a
well-formed configuration, the aging mode and the descriptor table of that configuration; the software timer is armed
exactly while a SW engine is started, and a tick is pending only while it is armed; before CREATE nothing is started,
armed or listed, and a redraw of the entries is due only there; `res.STATUS` holds one of the five codes (R330). That
no entry is listed before CREATE is the model's choice (log 1, log 15). -/
abbrev Inv (s : State) : Prop :=
  Table.wf s.table = true ∧ Table.below s.cfg.n s.table = true ∧ s.res.status.toNat ≤ 4 ∧
  (s.eng.swPending.isSome = true → s.eng.swArmed = true) ∧
  (s.eng.created = true →
    cfgWf s.cfg = true ∧ s.eng.agingMode = agingModeOf s.cfg ∧ s.eng.ctrl = ctrlTable s.cfg ∧
      (s.eng.swArmed = true ↔ s.eng.started = true ∧ s.eng.agingMode = .sw)) ∧
  (s.eng.created = false → s.eng.started = false ∧ s.eng.swArmed = false ∧ s.table = []) ∧
  (s.tableLost = true → s.eng.created = false)

end Sys2Proof.Machine
end

