-- ==== Sys2Proof/Certificates/Slice0/Obligations.lean ====
section
/-! DEFINITION. The statements about the machine, each a `def Obligations.<Name> : Prop`, from the numbered rules of
spec/. `Ready s` says that the engine is created, not faulted, and that no other agent steps inside the command (the
schedule of spec/95_test_vectors.md). A free value or an end value of a hidden register is quantified (`∃ k`, `∃ b`). -/

open Sys2Proof Sys2Proof.Machine

/-! ## Encoding (30_encoding.md) -/

/-- The rows of spec/opcode_table.json with a command word, as (mask, match). -/
def tableRows : List (Word × Word) :=
  [(0xFFFFFFFF, 0x01), (0xFFFFFFFF, 0x02), (0xFFFFFFFF, 0x03), (0xFFFFFFFF, 0x04), (0xFFFFFFFF, 0x08),
   (0xFFFFFFFF, 0x09), (0xFFFFFFFF, 0x0A), (0xFFFFFFFF, 0x0B), (0xFFE0FE3F, 0x10), (0xFFFFFFBF, 0x11),
   (0xFFFF3DBF, 0x12), (0xFFFFFFBF, 0x13), (0xFFFFFBFF, 0x14)] ++
  [(0xFFFFFFFF, 0x18), (0xFFFFFFFF, 0x19), (0xFFFFFFFF, 0x1A), (0xFFFFEFFF, 0x1B), (0xFFFFF7FF, 0x1C),
   (0xFFE0F3FF, 0x1D), (0xFC00FFFF, 0x20), (0xFC00FFFF, 0x21), (0xFFE0FFFF, 0x22), (0xFFE0FFFF, 0x23),
   (0xFFFFFFFF, 0x28), (0xFFFFFFFF, 0x29), (0xFFFFFFFF, 0x2B)]

/-- Decoding what encodes a well-formed instruction gives the instruction back, with every operand (R80, R82, R90). -/
def Obligations.DecodeEncodeGivesTheInstruction : Prop :=
  ∀ i : Instr, i.wf = true → decodeRequest (encode i) = .ok i

/-- R84: a word is legal exactly when it is `match` under `mask` of exactly one row of the opcode table; an illegal word
is refused, and the refusal sets the mark and changes nothing else. -/
def Obligations.LegalWordsMatchOneRowAndOthersAreRefused : Prop :=
  ∀ w : Word,
    ((∃ i, decodeWord w = .ok i) ↔ (tableRows.filter fun r => w &&& r.1 == r.2).length = 1) ∧
    ((∀ i, decodeWord w ≠ .ok i) → ∀ (s : State) (rest : List Move), Live s →
      s.agenda = .request (.word w) :: rest →
      step s = .next { s with agenda := rest, refused := true, lastRefusal := some .illegalCommand })

/-- Words written out from R80 and R82, some of 95_test_vectors.md, decode to the commands they stand for. -/
def Obligations.SampleWordsDecode : Prop :=
  decodeWord 0x00000001 = .ok .tblRead ∧
  decodeWord 0x0000000A = .ok .matchFree ∧
  decodeWord 0x000201D0 = .ok (.addUcast true true true 2) ∧
  decodeWord 0x0000C052 = .ok (.addMcast true false 3) ∧
  decodeWord 0x0000101B = .ok (.delVlan true) ∧
  decodeWord 0x0002081D = .ok (.setAllmulti true false 2) ∧
  decodeWord 0x03010020 = .ok (.ctrlGet 1 24) ∧
  decodeWord 0x00000028 = .ok .start ∧
  decodeWord 0x00012010 = .error .reservedBit ∧
  decodeWord 0x00010011 = .error .unusedField ∧
  decodeWord 0x00000005 = .error .unassignedOpcode

/-! ## Steps -/

/-- A step whose next move is a request that decodes to `i` is `exec` of `i`, with the move taken off the agenda (the
agenda is the model's, log 5). -/
def Obligations.StepRunsTheDecodedInstruction : Prop :=
  ∀ (s : State) (r : Request) (rest : List Move) (i : Instr), Live s → s.agenda = .request r :: rest →
    decodeRequest r = .ok i → step s = exec i { s with agenda := rest }

/-- Before CREATE every request (a command word, legal or not, and an access) is refused NOT_CREATED and no agent steps;
a second CREATE is refused (R299). -/
def Obligations.NothingRunsBeforeCreate : Prop :=
  ∀ s : State, s.faulted = false →
    (s.eng.created = false →
      (∀ (r : Request) (rest : List Move), s.agenda = .request r :: rest →
        step s = .next { s with agenda := rest, refused := true, lastRefusal := some .notCreated }) ∧
      (∀ i : Instr, exec i s = .next { s with refused := true, lastRefusal := some .notCreated }) ∧
      ∀ x : AgentStep, agentStep x s = s) ∧
    (s.eng.created = true → ∀ c identity,
      create c identity s = { s with refused := true, lastRefusal := some .recreate })

/-- R333: "The faulted state is quiescent: no agent takes another step": of a faulted machine neither a step nor an
instruction answers a next state. Of a machine that is not faulted every instruction answers one, which a fault or a
refusal of the spec is too; that these are next states and quiescence the Host's fault is the model's reading (log 6,
log 7). -/
def Obligations.InstructionsAnswerUnlessFaulted : Prop :=
  ∀ s : State,
    (s.faulted = true → step s = .fault .quiescent ∧ ∀ i : Instr, exec i s = .fault .quiescent) ∧
    (s.faulted = false → ∀ i : Instr, ∃ t, exec i s = .next t)

/-- A command that reads an argument register holding `undef` faults UNDEF_ARG and does nothing else (R23, R332). -/
def Obligations.UndefinedArgumentFaults : Prop :=
  ∀ (i : Instr) (s : State), Live s → argsDefined i s = false →
    exec i s = .next { s with faulted := true, lastFault := some .undefArg }

/-! ## Codec (42_codec_table_port.md, 43_search.md) -/

/-- R153: a field reads back as written, and no bit outside it changes, straddling fields included. -/
def Obligations.CodecRoundTrip : Prop :=
  ∀ (e : Image) (s w : Nat) (v : Word), codecInRange s w = true → v.toNat < 2 ^ w →
    getField (setField e s w v) s w = v ∧
    ∀ b, ¬ (s ≤ b ∧ b < s + w) → (setField e s w v).getLsbD b = e.getLsbD b

/-- A direct codec call faults CODEC_RANGE exactly outside the codec's range (R150, R151). -/
def Obligations.CodecFaultsOutsideItsRange : Prop :=
  ∀ (e : Image) (s w : Nat) (v : Word),
    (codecInRange s w = true → getFieldChecked e s w = .ok (getField e s w) ∧
      setFieldChecked e s w v = .ok (setField e s w v)) ∧
    (codecInRange s w = false → getFieldChecked e s w = .error .codecRange ∧
      setFieldChecked e s w v = .error .codecRange)

/-- R154: the address read back is the address written, the address of an image is its bits 47..0, and SetAddr changes
no other bit. -/
def Obligations.MacAddressRoundTrip : Prop :=
  ∀ (e : Image) (m : Mac),
    getAddr (setAddr e m) = m ∧ getAddr e = e.extractLsb' 0 48 ∧
    ∀ b, 48 ≤ b → (setAddr e m).getLsbD b = e.getLsbD b

/-- R181 to R183 in bits: the entry type by E[61:60], multicast by E[40], ageable exactly when the type is 1 or 3, the
group bit 0 and UCAST_TYPE 1 or 3. -/
def Obligations.EntryPredicatesInBits : Prop :=
  ∀ e : Image,
    isAddr e = e.getLsbD 60 ∧ isVlan e = (e.getLsbD 61 && !e.getLsbD 60) ∧
    isFree e = (!e.getLsbD 61 && !e.getLsbD 60) ∧ isMcast e = e.getLsbD 40 ∧
    ageable e = (e.getLsbD 60 && !e.getLsbD 40 && e.getLsbD 62)

/-- The table-port read and write of the commands are the register sequences of R155 and R156. -/
def Obligations.TablePortIsTheRegisterSequence : Prop :=
  ∀ (i : Nat) (e : Image) (s : State), i < 2 ^ 31 →
    (let t := writeReg .tableControl (BitVec.ofNat 32 i) s
     selectEntry i s =
       (namedValue t .tableWord2 ++ namedValue t .tableWord1 ++ namedValue t .tableWord0, t)) ∧
    commitEntry i e s =
      writeReg .tableControl (0x80000000 ||| BitVec.ofNat 32 i)
        (writeReg .tableWord0 (e.extractLsb' 0 32)
          (writeReg .tableWord1 (e.extractLsb' 32 32) (writeReg .tableWord2 (e.extractLsb' 64 32) s)))

/-- R34: a field id the layout does not allow answers a value, leaves the image on a set and is reported; and no command
reaches this case. -/
def Obligations.DisallowedVlanFieldIsReported : Prop :=
  (∀ (e : Image) (id : VlanField) (v : Word) (s : State), vlanPlace s.cfg id = none →
    (∃ d k, vlanGet e id s = (d, { s with eng := { s.eng with contractViolation := true }, drawCount := k })) ∧
    vlanSet e id v s = (e, { s with eng := { s.eng with contractViolation := true } })) ∧
  ∀ (i : Instr) (s t : State), exec i s = .next t → t.eng.contractViolation = s.eng.contractViolation

/-! ## Register interface (41_register_interface.md, 20_memory.md) -/

/-- MMIO_READ of a listed register (R120): the value returned has the named fields as they read, and nothing else of the
machine changes. -/
def Obligations.MmioReadReturnsTheNamedFields : Prop :=
  ∀ (s : State) (off : Word) (r : Reg), Live s → alignedOffset off = true → regAt s.cfg off.toNat = some r →
    ∃ v k, exec (.mmioRead .w32 off) s = .next { s with busData := some v, drawCount := k } ∧
      readWord v &&& namedMask s.cfg r = namedValue s r &&& namedMask s.cfg r

/-- R62: an access of another width, misaligned, or at an offset that names no register is refused and has no other
effect. -/
def Obligations.MmioOutsideTheMapIsRefused : Prop :=
  ∀ (s : State) (width : AccessWidth) (off v : Word), Live s →
    (width.wf = false ∨ alignedOffset off = false ∨ regAt s.cfg off.toNat = none) →
    ∃ x, (x = .mmioWidth ∨ x = .mmioOffset) ∧
      exec (.mmioRead width off) s = .next { s with refused := true, lastRefusal := some x } ∧
      exec (.mmioWrite width off v) s = .next { s with refused := true, lastRefusal := some x }

/-- R121: a write to a storage register stores its named fields, drops the reserved bits and changes nothing else; a write
to a read-only register changes nothing. -/
def Obligations.MmioWriteStoresTheNamedFields : Prop :=
  ∀ (s : State) (off v : Word) (r : Reg), Live s → s.cfg.p ≤ 20 → alignedOffset off = true →
    regAt s.cfg off.toNat = some r →
    ((r = .idver ∨ r = .status) → exec (.mmioWrite .w32 off v) s = .next s) ∧
    (r ∉ [Reg.idver, .status, .control, .agingTimer, .tableControl, .tableWord2, .tableWord1, .tableWord0] →
      ∃ g, exec (.mmioWrite .w32 off v) s = .next { s with regs := g } ∧
        namedValue { s with regs := g } r = v &&& namedMask s.cfg r ∧
        (∀ r', r' ≠ r → namedValue { s with regs := g } r' = namedValue s r'))

/-- R122: TABLE_CONTROL selects an entry into TBLBUF, commits TBLBUF into an entry, or faults on an index at or above
N. -/
def Obligations.MmioTableControlSelectsOrCommits : Prop :=
  ∀ (s : State) (off v : Word), Live s → alignedOffset off = true → regAt s.cfg off.toNat = some .tableControl →
    exec (.mmioWrite .w32 off v) s =
      if s.cfg.n ≤ (v &&& 0x7FFFFFFF).toNat then .next { s with faulted := true, lastFault := some .tableIndex }
      else if v.getLsbD 31 then
        .next { s with table := Table.store s.table (v &&& 0x7FFFFFFF).toNat s.tblBuf }
      else .next { s with tblBuf := Table.entry s.table (v &&& 0x7FFFFFFF).toNat }

/-- R123: a write to TABLE_WORDk replaces bits 32k+31..32k of TBLBUF and nothing else. -/
def Obligations.MmioTableWordStagesOneWord : Prop :=
  ∀ (s : State) (off v : Word) (r : Reg) (k : Nat), Live s → alignedOffset off = true →
    regAt s.cfg off.toNat = some r → (r, k) ∈ [(Reg.tableWord2, 2), (.tableWord1, 1), (.tableWord0, 0)] →
    ∃ b, exec (.mmioWrite .w32 off v) s = .next { s with tblBuf := b } ∧ b.extractLsb' (32 * k) 32 = v ∧
      ∀ x, ¬ (32 * k ≤ x ∧ x < 32 * k + 32) → b.getLsbD x = s.tblBuf.getLsbD x

/-- R124: a write to CONTROL stores the RW fields, then clears the table when CLEAR is 1, then runs one aging pass when
AGEOUT is 1 (which finds nothing after a CLEAR); CLEAR and AGEOUT read 0 afterwards. -/
def Obligations.MmioControlStoresClearsAges : Prop :=
  ∀ (s : State) (off v : Word), Live s → alignedOffset off = true → regAt s.cfg off.toNat = some .control →
    ∃ tb k, exec (.mmioWrite .w32 off v) s =
        .next { s with regs := { s.regs with control := v &&& 0x800001FF }, table := tb, drawCount := k } ∧
      (∀ t : State, t.regs.control = v &&& 0x800001FF →
        namedValue t .control = v &&& 0x800001FF) ∧
      ∀ j, ∃ d,
        Table.entry tb j =
          if v.getLsbD 30 then 0
          else if v.getLsbD 29 = true ∧ j < s.cfg.n then ageEntry s.cfg.agingPass (Table.entry s.table j) d
          else Table.entry s.table j

/-- R125: AGING_TIMER exists only with hardware aging, and a write loads PERIOD and age_cnt with bits 23..0. -/
def Obligations.MmioAgingTimerLoadsTheCounter : Prop :=
  (∀ (c : Cfg) (off : Nat), c.hasHwAutoaging = false → regAt c off ≠ some .agingTimer) ∧
  ∀ (s : State) (off v : Word), Live s → alignedOffset off = true → regAt s.cfg off.toNat = some .agingTimer →
    exec (.mmioWrite .w32 off v) s =
      .next { s with regs := { s.regs with period := v.extractLsb' 0 24 }, ageCnt := v.extractLsb' 0 24 }

/-! ## Table-port commands (42_codec_table_port.md) -/

/-- R160: TBL_READ answers the entry at the instant of the select and its index, or faults TABLE_INDEX or UNDEF_ARG;
what the other agents do before its one micro-step is `interleave` (log 4). That no agent steps inside a command that
faults is the model's choice (log 21). -/
def Obligations.TblReadAnswersTheEntry : Prop :=
  ∀ s : State, Live s →
    (s.a.value = none → exec .tblRead s = .next { s with faulted := true, lastFault := some .undefArg }) ∧
    ∀ idx : Word, s.a.value = some idx →
      exec .tblRead s =
        if idx.toNat < s.cfg.n then
          let s1 := interleave s
          .next { s1 with
            tblBuf := Table.entry s1.table idx.toNat
            res := { s1.res with status := 0, index := some idx, img := some (Table.entry s1.table idx.toNat) } }
        else .next { s with faulted := true, lastFault := some .tableIndex }

/-- R161: TBL_WRITE writes the image whole at its index, or faults TABLE_INDEX or UNDEF_ARG; what the other agents do
before its one micro-step is `interleave` (log 4). That no agent steps inside a command that faults is the model's choice
(log 21). -/
def Obligations.TblWriteWritesTheEntry : Prop :=
  ∀ s : State, Live s →
    (s.a.value = none ∨ s.a.img = none →
      exec .tblWrite s = .next { s with faulted := true, lastFault := some .undefArg }) ∧
    ∀ (idx : Word) (e : Image), s.a.value = some idx → s.a.img = some e →
      exec .tblWrite s =
        if idx.toNat < s.cfg.n then
          let s1 := interleave s
          .next { s1 with
            table := Table.store s1.table idx.toNat e
            tblBuf := e
            res := { s1.res with status := 0, index := some idx } }
        else .next { s with faulted := true, lastFault := some .tableIndex }

/-- R162: DUMP answers the words of the whole table, W2, W1, W0 of each entry in index order, and changes no entry. -/
def Obligations.DumpAnswersTheTable : Prop :=
  ∀ s : State, Ready s →
    ∃ b, exec .dump s =
      .next { s with tblBuf := b, res := { s.res with status := 0, buf := some (tableWords s.cfg.n s.table) } }

/-- R163: RESTORE writes every entry from the buffer, or rejects a buffer of the wrong length before any write. -/
def Obligations.RestoreWritesTheTable : Prop :=
  ∀ (s : State) (ws : List Word), Ready s → s.a.buf = some ws →
    (ws.length ≠ 3 * s.cfg.n → exec .restore s = .next { s with res := { s.res with status := 1 } }) ∧
    (ws.length = 3 * s.cfg.n →
      ∃ tb b, exec .restore s = .next { s with table := tb, tblBuf := b, res := { s.res with status := 0 } } ∧
        ∀ j, Table.entry tb j =
          if j < s.cfg.n then
            (ws[3 * j]?).getD 0 ++ (ws[3 * j + 1]?).getD 0 ++ (ws[3 * j + 2]?).getD 0
          else Table.entry s.table j)

/-! ## Search (43_search.md) -/

/-- R185, R186: MATCH_UCAST and MATCH_VLAN answer the lowest index whose entry matches, with its image, or NotFound; no
entry changes. -/
def Obligations.MatchAnswersTheFirstMatch : Prop :=
  ∀ (i : Instr) (s : State) (pred : Image → Bool), Ready s →
    ((∃ addr vid, i = .matchUcast ∧ s.a.mac = some addr ∧ s.a.vid = some vid ∧ pred = addrMatches addr vid) ∨
      (∃ vid, i = .matchVlan ∧ s.a.vid = some vid ∧ pred = vlanMatches vid)) →
    match firstIndex pred s.cfg.n s.table with
    | some j => exec i s = .next { s with
        tblBuf := Table.entry s.table j
        res := { s.res with
          status := 0, index := some (BitVec.ofNat 32 j), img := some (Table.entry s.table j) } }
    | none => ∃ b, exec i s = .next { s with tblBuf := b, res := { s.res with status := 2 } }

/-- R187, R188: MATCH_FREE and FIND_AGEABLE answer the lowest index of a FREE or of an ageable entry, or NotFound; no
entry changes. -/
def Obligations.FindAnswersTheFirstIndex : Prop :=
  ∀ (i : Instr) (s : State) (pred : Image → Bool), Ready s →
    ((i = .matchFree ∧ pred = isFree) ∨ (i = .findAgeable ∧ pred = ageable)) →
    match firstIndex pred s.cfg.n s.table with
    | some j => exec i s = .next { s with
        tblBuf := Table.entry s.table j
        res := { s.res with status := 0, index := some (BitVec.ofNat 32 j) } }
    | none => ∃ b, exec i s = .next { s with tblBuf := b, res := { s.res with status := 2 } }

/-! ## Address entries (44_addr_entries.md) -/

/-- The fields of the image ADD_UCAST writes (R200, R201), under a well-formed configuration. -/
def Obligations.UcastImageFields : Prop :=
  ∀ (c : Cfg) (vlan secure blocked : Bool) (port : BitVec 5) (addr : Mac) (vid : Vid), cfgWf c = true →
    port.toNat < c.p →
    let e := ucastImage c vlan secure blocked port addr vid
    entryType e = (if vlan then .vlanAddr else .addr) ∧ getVid e = (if vlan then vid else 0) ∧ getAddr e = addr ∧
    ucastType e = .persistent ∧ e.getLsbD 64 = secure ∧ e.getLsbD 65 = blocked ∧
    getF c e .portNum = port.setWidth 32 ∧ ∀ b, 66 + pnb c ≤ b → e.getLsbD b = false

/-- R201: ADD_UCAST writes the fresh image at the match, else at a FREE slot, else at an ageable slot, else fails; a port
at or above P is rejected. -/
def Obligations.AddUcastWritesTheEntry : Prop :=
  ∀ (s : State) (vlan secure blocked : Bool) (port : BitVec 5) (addr : Mac) (vid : Vid), Ready s →
    s.a.mac = some addr → scopedVid vlan s = some vid →
    if port.toNat < s.cfg.p then
      match slotFor (addrMatches addr vid) s.cfg.n s.table with
      | some j => exec (.addUcast vlan secure blocked port) s = .next { s with
          table := Table.store s.table j (ucastImage s.cfg vlan secure blocked port addr vid)
          tblBuf := ucastImage s.cfg vlan secure blocked port addr vid
          res := { s.res with status := 0, index := some (BitVec.ofNat 32 j) } }
      | none => ∃ b, exec (.addUcast vlan secure blocked port) s =
          .next { s with tblBuf := b, res := { s.res with status := 3 } }
    else exec (.addUcast vlan secure blocked port) s = .next { s with res := { s.res with status := 1 } }

/-- R202: DEL_UCAST makes the first match all-zero, or answers NotFound. -/
def Obligations.DelUcastFreesTheMatch : Prop :=
  ∀ (s : State) (vlan : Bool) (addr : Mac) (vid : Vid), Ready s → s.a.mac = some addr → scopedVid vlan s = some vid →
    match firstIndex (addrMatches addr vid) s.cfg.n s.table with
    | some j => exec (.delUcast vlan) s = .next { s with
        table := Table.store s.table j 0
        tblBuf := 0
        res := { s.res with status := 0, index := some (BitVec.ofNat 32 j) } }
    | none => ∃ b, exec (.delUcast vlan) s = .next { s with tblBuf := b, res := { s.res with status := 2 } }

/-- The fields of the image ADD_MCAST writes (R203), under a well-formed configuration: members accumulate, SUPER and
MCAST_STATE are replaced, and the bits outside the fields written are kept. -/
def Obligations.McastImageFields : Prop :=
  ∀ (c : Cfg) (old : Image) (vlan super : Bool) (mstate : BitVec 2) (addr : Mac) (vid : Vid) (mask : Word),
    cfgWf c = true → mask &&& ~~~portMaskAll c = 0 →
    let e := mcastImage c old vlan super mstate addr vid mask
    entryType e = (if vlan then .vlanAddr else .addr) ∧ getVid e = (if vlan then vid else getVid old) ∧
    getAddr e = addr ∧ e.getLsbD 65 = super ∧ getF c e .mcastState = mstate.setWidth 32 ∧
    getF c e .portMask = getF c old .portMask ||| mask ∧ e.getLsbD 64 = old.getLsbD 64 ∧
    ∀ b, 66 + c.p ≤ b → e.getLsbD b = old.getLsbD b

/-- R203: ADD_MCAST writes the image built from the existing match or from 0, at the match, else at a FREE slot, else at
an ageable slot, else fails. -/
def Obligations.AddMcastWritesTheEntry : Prop :=
  ∀ (s : State) (vlan super : Bool) (mstate : BitVec 2) (addr : Mac) (mask : Word) (vid : Vid), Ready s →
    s.a.mac = some addr → s.a.mask0 = some mask → scopedVid vlan s = some vid →
    let old := match firstIndex (addrMatches addr vid) s.cfg.n s.table with
      | some j => Table.entry s.table j
      | none => 0
    let e := mcastImage s.cfg old vlan super mstate addr vid (mask &&& portMaskAll s.cfg)
    match slotFor (addrMatches addr vid) s.cfg.n s.table with
    | some j => exec (.addMcast vlan super mstate) s = .next { s with
        table := Table.store s.table j e
        tblBuf := e
        res := { s.res with status := 0, index := some (BitVec.ofNat 32 j) } }
    | none => ∃ b, exec (.addMcast vlan super mstate) s =
        .next { s with tblBuf := b, res := { s.res with status := 3 } }

/-- R204: DEL_MCAST clears the ports in the mask of the first match, making it FREE (its other bits kept) when none is
left, or answers NotFound. -/
def Obligations.DelMcastRemovesPorts : Prop :=
  ∀ (s : State) (vlan : Bool) (addr : Mac) (mask : Word) (vid : Vid), Ready s → s.a.mac = some addr →
    s.a.mask0 = some mask → scopedVid vlan s = some vid →
    match firstIndex (addrMatches addr vid) s.cfg.n s.table with
    | some j =>
      ∃ e, exec (.delMcast vlan) s = .next { s with
          table := Table.store s.table j e
          tblBuf := e
          res := { s.res with status := 0, index := some (BitVec.ofNat 32 j) } } ∧
        let old := Table.entry s.table j
        let pm := getF s.cfg old .portMask &&& ~~~(mask &&& portMaskAll s.cfg)
        e = if pm = 0 then setType old .free else setF s.cfg old .portMask pm
    | none => ∃ b, exec (.delMcast vlan) s = .next { s with tblBuf := b, res := { s.res with status := 2 } }

/-- R205: FLUSH_MCAST removes the ports from every multicast entry the VLAN filter passes that is not exempt (SUPER or the
broadcast address), freeing those left without ports; every other entry keeps its value. -/
def Obligations.FlushMcastRemovesPortsEverywhere : Prop :=
  ∀ (s : State) (any : Bool) (mask : Word), Ready s → s.a.mask0 = some mask →
    (any = true ∨ s.a.vid.isSome = true) →
    ∃ tb b k, exec (.flushMcast any) s =
        .next { s with table := tb, tblBuf := b, drawCount := k, res := { s.res with status := 0 } } ∧
      ∀ j, Table.entry tb j =
        let e := Table.entry s.table j
        let pm := getF s.cfg e .portMask
        let m := mask &&& portMaskAll s.cfg
        if j < s.cfg.n ∧ isAddr e = true ∧ (any = true ∨ s.a.vid = some (getVid e)) ∧ isMcast e = true ∧
            getF s.cfg e .super ≠ 1 ∧ getAddr e ≠ 0xFFFFFFFFFFFF ∧ pm &&& m ≠ 0 then
          if pm &&& ~~~m = 0 then setType e .free else setF s.cfg e .portMask (pm &&& ~~~m)
        else e

/-! ## VLAN entries (45_vlan_entries.md) -/

/-- R240: ADD_VLAN writes a VLAN entry with the operand masks at the matching slot, else at a free or ageable one, sets
the host-untag bit and, when INDIRECT, the bank registers; every other bit and register is kept; on a full table nothing
changes. -/
def Obligations.AddVlanWritesTheEntry : Prop :=
  ∀ (s : State) (vid : Vid) (m0 m1 m2 m3 : Word), Ready s → cfgWf s.cfg = true → s.a.vid = some vid →
    s.a.mask0 = some m0 → s.a.mask1 = some m1 → s.a.mask2 = some m2 → s.a.mask3 = some m3 →
    let m := operandMasks s.cfg m0 m1 m2 m3
    match slotFor (vlanMatches vid) s.cfg.n s.table with
    | some j =>
      ∃ e g k, exec .addVlan s = .next (setUntagBit vid (m.untag.getLsbD 0) { s with
          regs := { s.regs with maskMux := g }
          table := Table.store s.table j e
          tblBuf := e
          drawCount := k
          res := { s.res with status := 0, index := some (BitVec.ofNat 32 j) } }) ∧
        VlanWritten s.cfg vid m s.regs.maskMux g (vlanImageOf vid s) e
    | none => ∃ b, exec .addVlan s = .next { s with tblBuf := b, res := { s.res with status := 3 } }

/-- R241: VLAN_ADD_MODIFY adds the ports to the members and replaces only their bits in the untag and flood masks, then
writes as ADD_VLAN does. -/
def Obligations.VlanAddModifyMergesTheMasks : Prop :=
  ∀ (s : State) (vid : Vid) (m0 m1 m2 m3 : Word), Ready s → cfgWf s.cfg = true → s.a.vid = some vid →
    s.a.mask0 = some m0 → s.a.mask1 = some m1 → s.a.mask2 = some m2 → s.a.mask3 = some m3 →
    let new := operandMasks s.cfg m0 m1 m2 m3
    let old := vlanMasksFor vid s
    let m : VlanMasks :=
      { mem := old.mem ||| new.mem
        untag := (old.untag &&& ~~~new.mem) ||| (new.untag &&& new.mem)
        reg := (old.reg &&& ~~~new.mem) ||| (new.reg &&& new.mem)
        unreg := (old.unreg &&& ~~~new.mem) ||| (new.unreg &&& new.mem) }
    match slotFor (vlanMatches vid) s.cfg.n s.table with
    | some j =>
      ∃ e g k, exec .vlanAddModify s = .next (setUntagBit vid (m.untag.getLsbD 0) { s with
          regs := { s.regs with maskMux := g }
          table := Table.store s.table j e
          tblBuf := e
          drawCount := k
          res := { s.res with status := 0, index := some (BitVec.ofNat 32 j) } }) ∧
        VlanWritten s.cfg vid m s.regs.maskMux g (vlanImageOf vid s) e
    | none => ∃ b k, exec .vlanAddModify s =
        .next { s with tblBuf := b, drawCount := k, res := { s.res with status := 3 } }

/-- R235, R242: VLAN_DEL_MODIFY removes the ports from the members and narrows the other masks to the surviving members,
or frees the entry and clears its untag bit when none survives; without a VLAN entry it answers NotFound. -/
def Obligations.VlanDelModifyNarrowsTheMasks : Prop :=
  ∀ (s : State) (vid : Vid) (m0 : Word), Ready s → cfgWf s.cfg = true → s.a.vid = some vid → s.a.mask0 = some m0 →
    match firstIndex (vlanMatches vid) s.cfg.n s.table with
    | some j =>
      let image := Table.entry s.table j
      let old := vlanMasksOf s.cfg s.regs.maskMux image
      let mem := old.mem &&& ~~~portMask s.cfg m0
      ∃ e g k, exec .vlanDelModify s =
          .next (setUntagBit vid (if mem = 0 then false else (old.untag &&& mem).getLsbD 0) { s with
            regs := { s.regs with maskMux := g }
            table := Table.store s.table j e
            tblBuf := e
            drawCount := k
            res := { s.res with status := 0, index := some (BitVec.ofNat 32 j) } }) ∧
        (if mem = 0 then e = freedVlan s.cfg image ∧ g = s.regs.maskMux
        else VlanNarrowed s.cfg mem s.regs.maskMux g image e)
    | none => ∃ b, exec .vlanDelModify s = .next { s with tblBuf := b, res := { s.res with status := 2 } }

/-- R243: DEL_VLAN frees the entry when FORCE is 1, the mask is 0 or no member is left, and otherwise removes the ports
but never the host port. -/
def Obligations.DelVlanFreesOrNarrows : Prop :=
  ∀ (s : State) (force : Bool) (vid : Vid) (m0 : Word), Ready s → cfgWf s.cfg = true → s.a.vid = some vid →
    s.a.mask0 = some m0 →
    match firstIndex (vlanMatches vid) s.cfg.n s.table with
    | some j =>
      let image := Table.entry s.table j
      let old := vlanMasksOf s.cfg s.regs.maskMux image
      let pm := portMask s.cfg m0
      let mem := old.mem &&& ~~~(pm &&& ~~~1)
      let whole : Prop := force = true ∨ pm = 0 ∨ old.mem &&& ~~~pm = 0
      ∃ e g k ub, exec (.delVlan force) s = .next (setUntagBit vid ub { s with
            regs := { s.regs with maskMux := g }
            table := Table.store s.table j e
            tblBuf := e
            drawCount := k
            res := { s.res with status := 0, index := some (BitVec.ofNat 32 j) } }) ∧
        (whole → ub = false ∧ e = freedVlan s.cfg image ∧ g = s.regs.maskMux) ∧
        (¬ whole → ub = (old.untag &&& mem).getLsbD 0 ∧ VlanNarrowed s.cfg mem s.regs.maskMux g image e)
    | none => ∃ b, exec (.delVlan force) s = .next { s with tblBuf := b, res := { s.res with status := 2 } }

/-- R244: SET_UNREG_MCAST adds the mask to, or removes it from, the unregistered flood mask of every VLAN entry: inline,
or in the bank registers that VLAN entries name when INDIRECT; nothing else changes. -/
def Obligations.SetUnregMcastTogglesEveryVlan : Prop :=
  ∀ (s : State) (en : Bool) (m0 : Word), Ready s → s.a.mask0 = some m0 →
    ∃ tb b g k, exec (.setUnregMcast en) s = .next { s with
        regs := { s.regs with maskMux := g }, table := tb, tblBuf := b, drawCount := k
        res := { s.res with status := 0 } } ∧
      (indirect s.cfg = true → (∀ j, Table.entry tb j = Table.entry s.table j) ∧
        ∀ x, x < 8 →
          ((∃ j, j < s.cfg.n ∧ isVlan (Table.entry s.table j) = true ∧
              (vlanFieldOf s.cfg (Table.entry s.table j) .unregMcastIdx).toNat = x) →
            muxMask s.cfg g x = toggleMask en (muxMask s.cfg s.regs.maskMux x) (portMask s.cfg m0)) ∧
          ((∀ j, j < s.cfg.n → isVlan (Table.entry s.table j) = true →
              (vlanFieldOf s.cfg (Table.entry s.table j) .unregMcastIdx).toNat ≠ x) →
            g[x]? = s.regs.maskMux[x]?)) ∧
      (indirect s.cfg = false → g = s.regs.maskMux ∧
        ∀ j st w, vlanPlace s.cfg .unregMcastMsk = some (st, w) →
          Table.entry tb j =
            if j < s.cfg.n ∧ isVlan (Table.entry s.table j) = true then
              setField (Table.entry s.table j) st w
                (toggleMask en (getField (Table.entry s.table j) st w) (portMask s.cfg m0))
            else Table.entry s.table j)

/-- R245: SET_ALLMULTI sets or clears the host bit in the unregistered flood mask of every VLAN entry with the port among
its members, or of every VLAN entry when ANY = 1; a port at or above P is rejected when ANY = 0. -/
def Obligations.SetAllmultiTogglesTheHostBit : Prop :=
  ∀ (s : State) (en any : Bool) (port : BitVec 5), Ready s →
    let picks : Nat → Prop := fun j =>
      j < s.cfg.n ∧ isVlan (Table.entry s.table j) = true ∧
        (any = true ∨ (vlanFieldOf s.cfg (Table.entry s.table j) .memberList).getLsbD port.toNat = true)
    ((any = false ∧ s.cfg.p ≤ port.toNat) →
      exec (.setAllmulti en any port) s = .next { s with res := { s.res with status := 1 } }) ∧
    ((any = true ∨ port.toNat < s.cfg.p) →
      ∃ tb b g k, exec (.setAllmulti en any port) s = .next { s with
          regs := { s.regs with maskMux := g }, table := tb, tblBuf := b, drawCount := k
          res := { s.res with status := 0 } } ∧
        (indirect s.cfg = true → (∀ j, Table.entry tb j = Table.entry s.table j) ∧
          ∀ x, x < 8 →
            ((∃ j, picks j ∧ (vlanFieldOf s.cfg (Table.entry s.table j) .unregMcastIdx).toNat = x) →
              muxMask s.cfg g x =
                toggleMask en (muxMask s.cfg s.regs.maskMux x) (1 &&& portMaskAll s.cfg)) ∧
            ((∀ j, picks j → (vlanFieldOf s.cfg (Table.entry s.table j) .unregMcastIdx).toNat ≠ x) →
              g[x]? = s.regs.maskMux[x]?)) ∧
        (indirect s.cfg = false → g = s.regs.maskMux ∧
          ∀ j st w, vlanPlace s.cfg .unregMcastMsk = some (st, w) →
            (picks j → Table.entry tb j =
              setField (Table.entry s.table j) st w
                (toggleMask en (getField (Table.entry s.table j) st w) 1)) ∧
            (¬ picks j → Table.entry tb j = Table.entry s.table j)))

/-! ## Controls (46_control.md) -/

/-- R271, R273: CTRL_GET answers the control's field of its register, or rejects an unknown id, an absent control or a
port out of range. `ctrlTable` is the patched table of R270 and R276; what the other agents do before its one micro-step
(R66) is `interleave` (log 4). -/
def Obligations.CtrlGetAnswersTheField : Prop :=
  ∀ (s : State) (port cid : BitVec 5), Live s → cfgWf s.cfg = true → s.eng.ctrl = ctrlTable s.cfg →
    (26 < cid.toNat → exec (.ctrlGet port cid) s = .next { s with res := { s.res with status := 1 } }) ∧
    ∀ d, (ctrlTable s.cfg)[cid.toNat]? = some d →
      (isPresent s.cfg d = false → exec (.ctrlGet port cid) s = .next { s with res := { s.res with status := 4 } }) ∧
      (isPresent s.cfg d = true → isGlobal d = false → s.cfg.p ≤ port.toNat →
        exec (.ctrlGet port cid) s = .next { s with res := { s.res with status := 1 } }) ∧
      (isPresent s.cfg d = true → (isGlobal d = true ∨ port.toNat < s.cfg.p) →
        let p := if isGlobal d then 0 else port.toNat
        let s1 := interleave s
        ∃ r k, regAt s.cfg (d.base + p * d.portStride) = some r ∧
          exec (.ctrlGet port cid) s = .next { s1 with
            drawCount := k
            res := { s1.res with
              status := 0
              value := some ((namedValue s1 r >>> (d.shift + p * d.shiftStride)) &&& maskWord d.width) } })

/-- R272, R273: CTRL_SET replaces the control's field of its register by a read and a write of the register, two
micro-steps, with that write's effects (`writeReg`), or rejects an unknown id, an absent control, a port out of range or
a value wider than the field, or faults UNDEF_ARG. What the other agents do before each of the two micro-steps (R66) is
`interleave` (log 4); that the reserved bits of the value read play no part in the write is log 20. -/
def Obligations.CtrlSetReplacesTheField : Prop :=
  ∀ (s : State) (port cid : BitVec 5), Live s → cfgWf s.cfg = true → s.eng.ctrl = ctrlTable s.cfg →
    (s.a.value = none →
      exec (.ctrlSet port cid) s = .next { s with faulted := true, lastFault := some .undefArg }) ∧
    ∀ val : Word, s.a.value = some val →
      (26 < cid.toNat → exec (.ctrlSet port cid) s = .next { s with res := { s.res with status := 1 } }) ∧
      ∀ d, (ctrlTable s.cfg)[cid.toNat]? = some d →
        (isPresent s.cfg d = false →
          exec (.ctrlSet port cid) s = .next { s with res := { s.res with status := 4 } }) ∧
        (isPresent s.cfg d = true → isGlobal d = false → s.cfg.p ≤ port.toNat →
          exec (.ctrlSet port cid) s = .next { s with res := { s.res with status := 1 } }) ∧
        (isPresent s.cfg d = true → (isGlobal d = true ∨ port.toNat < s.cfg.p) → 2 ^ d.width ≤ val.toNat →
          exec (.ctrlSet port cid) s = .next { s with res := { s.res with status := 1 } }) ∧
        (isPresent s.cfg d = true → (isGlobal d = true ∨ port.toNat < s.cfg.p) → val.toNat < 2 ^ d.width →
          let p := if isGlobal d then 0 else port.toNat
          let sh := d.shift + p * d.shiftStride
          let s1 := interleave s
          ∃ r w k, regAt s.cfg (d.base + p * d.portStride) = some r ∧
            exec (.ctrlSet port cid) s =
              .next (withStatus .ok (writeReg r w (interleave { s1 with drawCount := k }))) ∧
            w &&& namedMask s.cfg r =
              ((namedValue s1 r &&& ~~~(maskWord d.width <<< sh)) ||| (val <<< sh)) &&& namedMask s.cfg r)

/-- R274, R275: the rate-limit setters write pps / 1000 into the port's MCAST_LIMIT [23:16] or BCAST_LIMIT [31:24] and
report the rounded rate and the remainder; below the granularity, above 255 units or on a bad port they reject. -/
def Obligations.RateLimitWritesTheLimit : Prop :=
  ∀ (s : State) (i : Instr) (port : BitVec 5) (pps : Word) (sh : Nat), Ready s → cfgWf s.cfg = true →
    s.eng.ctrl = ctrlTable s.cfg → s.a.value = some pps →
    ((i = .ratelimitMc port ∧ sh = 16) ∨ (i = .ratelimitBc port ∧ sh = 24)) →
    let v := pps.toNat / 1000
    ((s.cfg.p ≤ port.toNat ∨ (pps ≠ 0 ∧ v = 0) ∨ 255 < v) →
      exec i s = .next { s with res := { s.res with status := 1 } }) ∧
    (port.toNat < s.cfg.p → (pps = 0 ∨ v ≠ 0) → v ≤ 255 →
      ∃ k, exec i s = .next { s with
        regs := { s.regs with
          portctl := s.regs.portctl.setIfInBounds port.toNat
            ((((s.regs.portctl[port.toNat]?).getD 0 &&& ~~~((0xFF : Word) <<< sh)) ||| (BitVec.ofNat 32 v <<< sh)) &&&
              (0xFFFF283F : Word)) }
        drawCount := k
        res := { s.res with
          status := 0
          value := some (BitVec.ofNat 32 (v * 1000))
          aux := some (BitVec.ofNat 32 (pps.toNat % 1000)) } })

/-! ## Lifecycle and aging (47_lifecycle_aging.md, 70_reset_and_hazards.md) -/

/-- R362: the state right after START when no other agent steps. -/
def Obligations.StartInitialises : Prop :=
  ∀ s : State, Ready s →
    ∃ k, exec .start s = .next { s with
      regs := { s.regs with
        control := (s.regs.control &&& controlRw) ||| bitWord enableBit
        prescale := BitVec.ofNat 32 (s.cfg.fRef / 1000) &&& maskWord 19
        period := if s.eng.agingMode = .hw then BitVec.ofNat 24 (agingUnits s.cfg) else s.regs.period }
      ageCnt := if s.eng.agingMode = .hw then BitVec.ofNat 24 (agingUnits s.cfg) else s.ageCnt
      table := []
      eng := { s.eng with started := true, swArmed := s.eng.swArmed || s.eng.agingMode == .sw }
      drawCount := k
      res := { s.res with status := 0 } }

/-- R297: STOP stops aging, leaves the table or clears it, and disables lookup; in SW mode a tick already read completes
its write first (R301). -/
def Obligations.StopStops : Prop :=
  ∀ s : State, Ready s →
    let s0 := if s.eng.agingMode = .sw then tickWrite s else s
    ∃ tb k, exec .stop s = .next { s0 with
        regs := { s0.regs with
          control := s0.regs.control &&& controlRw &&& ~~~bitWord enableBit
          period := if s.eng.agingMode = .hw then 0 else s0.regs.period }
        ageCnt := if s.eng.agingMode = .hw then 0 else s0.ageCnt
        table := tb
        eng := { s0.eng with
          started := false, swArmed := if s.eng.agingMode = .sw then false else s0.eng.swArmed }
        drawCount := k
        res := { s0.res with status := 0 } } ∧
      (tb = [] ∨ tb = s0.table)

/-- "Stop must guarantee the aging activity cannot be observed to run after stop returns": under any schedule, after STOP
in the SW or the HW mode no step of any other agent changes anything: no tick of a timer (R297, R301), and no step of the
forwarding path, since ENABLE is 0 (R345). In the OFF mode STOP does not write AGING_TIMER (R303, OFF_COUNTING). -/
def Obligations.NothingAgesAfterStop : Prop :=
  ∀ s t : State, Inv s → Live s → s.eng.agingMode ≠ .off → exec .stop s = .next t →
    ∀ xs : List AgentStep, agentSteps xs t = t

/-- R298: STATUS_QUERY answers STATUS (its reserved bits free), or Unsupported without a status register; what the other
agents do before its one micro-step (R66) is `interleave` (log 4). -/
def Obligations.StatusQueryAnswersStatus : Prop :=
  ∀ s : State, Live s →
    (s.cfg.hasStatusReg = false → exec .statusQuery s = .next { s with res := { s.res with status := 4 } }) ∧
    (s.cfg.hasStatusReg = true →
      let s1 := interleave s
      ∃ v k, exec .statusQuery s =
          .next { s1 with drawCount := k, res := { s1.res with status := 0, value := some v } } ∧
        v &&& 0xFFFF = s.chip.statusValue &&& 0xFFFF)

/-- CREATE (R290; the order of BAD_CONFIG among the checks is the model's, log 10): a failure leaves everything but the
answer, a success installs the configuration and the engine state and changes no register; it changes no entry unless a
POWER_LOSS came before it, whose redraw of every entry is then made (R346; log 15). The counts come from the request, the
variant or the instance's STATUS (R42). -/
def Obligations.CreateInstallsOrFails : Prop :=
  ∀ (c : CreateRequest) (identity : String) (s : State), s.eng.created = false →
    (c.variants.lookup identity = none → create c identity s = { s with lastCreate := some .unknownIdentity }) ∧
    ∀ v, c.variants.lookup identity = some v →
      (entryCount c v s.chip.statusValue = none → create c identity s = { s with lastCreate := some .zeroCount }) ∧
      ∀ n, entryCount c v s.chip.statusValue = some n →
        (policerCountMissing c v s.chip.statusValue = true →
          create c identity s = { s with lastCreate := some .zeroCount }) ∧
        (policerCountMissing c v s.chip.statusValue = false → cfgWf (createCfg c v n) = false →
          create c identity s = { s with refused := true, lastRefusal := some .badConfig }) ∧
        (policerCountMissing c v s.chip.statusValue = false → cfgWf (createCfg c v n) = true →
          create c identity s = { s with lastCreate := some .alloc, drawCount := s.drawCount + 1 } ∨
          ∃ tb k, create c identity s = { s with
              cfg := createCfg c v n
              table := tb
              tableLost := false
              drawCount := k
              lastCreate := some .created
              eng := { s.eng with
                created := true, started := false, swArmed := false, swPending := none, untagVid := 0
                ctrl := ctrlTable (createCfg c v n)
                agingMode := if c.ageoutS = 0 then .off else if v.hasHwAutoaging then .hw else .sw } } ∧
            (s.tableLost = false → tb = s.table ∧ k = s.drawCount + 1) ∧
            (s.tableLost = true → ∀ j, j < n → Table.entry tb j = drawnImage (s.drawCount + 1 + 3 * j)))

/-- R300: tick-read stores CONTROL as it reads; tick-write writes back what was read with AGEOUT = 1 (the stored fields,
a CLEAR if the value read held one, then one pass) and leaves the timer armed. Both need the SW mode. -/
def Obligations.SoftwareTickPulsesAgeout : Prop :=
  ∀ s : State, s.eng.created = true →
    ((s.eng.agingMode = .sw ∧ s.eng.swArmed = true ∧ s.eng.swPending = none) →
      ∃ v k, agentStep .tickRead s = { s with eng := { s.eng with swPending := some v }, drawCount := k } ∧
        readWord v &&& 0xE00001FF = s.regs.control &&& 0x800001FF) ∧
    (¬ (s.eng.agingMode = .sw ∧ s.eng.swArmed = true ∧ s.eng.swPending = none) → agentStep .tickRead s = s) ∧
    (∀ v, s.eng.agingMode = .sw → s.eng.swPending = some v →
      agentStep .tickWrite s =
        let t := agingPass { s with
          regs := { s.regs with control := readWord v &&& 0x800001FF }
          table := if (readWord v).getLsbD 30 then [] else s.table }
        { t with eng := { t.eng with swPending := none } }) ∧
    ((s.eng.agingMode ≠ .sw ∨ s.eng.swPending = none) → agentStep .tickWrite s = s)

/-- R302: HW_TICK counts down, and at 1 or 0 runs one pass and reloads; with PERIOD = 0 it does not step. -/
def Obligations.HardwareTickCountsDown : Prop :=
  ∀ s : State, s.cfg.hasHwAutoaging = true → s.eng.created = true →
    (s.regs.period = 0 → agentStep .hwTick s = s) ∧
    (s.regs.period ≠ 0 → 1 < s.ageCnt.toNat → agentStep .hwTick s = { s with ageCnt := s.ageCnt - 1 }) ∧
    (s.regs.period ≠ 0 → s.ageCnt.toNat ≤ 1 →
      agentStep .hwTick s = { agingPass s with ageCnt := s.regs.period })

/-- R304: an aging pass never changes an entry that is not ageable; under EXACT a TOUCHED entry becomes UNTOUCHED with its
other bits kept and an UNTOUCHED one FREE; under LOOSE an ageable entry is kept, demoted or freed. Only the table
changes. -/
def Obligations.AgingPassAgesAgeableEntries : Prop :=
  ∀ s : State, ∃ tb k, agingPass s = { s with table := tb, drawCount := k } ∧
    ∀ j,
      let e := Table.entry s.table j
      let e' := Table.entry tb j
      ((s.cfg.n ≤ j ∨ ageable e = false) → e' = e) ∧
      ((j < s.cfg.n ∧ ageable e = true ∧ s.cfg.agingPass = .exact) →
        (e.getLsbD 63 = true → e' = setUcastType e .untouched) ∧
        (e.getLsbD 63 = false → e' = setType e .free ∨ e' = 0)) ∧
      ((j < s.cfg.n ∧ ageable e = true ∧ s.cfg.agingPass = .loose) →
        e' = e ∨ e' = setUcastType e .untouched ∨ e' = setType e .free ∨ e' = 0)

/-- R345: a step of the forwarding path changes at most one entry, one that is FREE or ageable, and only while the engine
is created with ENABLE = 1; a VLAN, multicast, PERSISTENT or OUI entry, the registers, TBLBUF and the engine never
change; a changed entry is ageable, with a port below P or the port it had. Enabled, FWD-learn writes any unicast learned
entry with the named fields and every other bit 0, FWD-touch marks an UNTOUCHED entry TOUCHED, and FWD-move gives an
entry that is not SECURE the port and marks it TOUCHED, each with the other bits kept. -/
def Obligations.ForwardingPathLearnsTouchesAndMoves : Prop :=
  (∀ (s : State) (x : AgentStep), cfgWf s.cfg = true → x ≠ .tickRead → x ≠ .tickWrite → x ≠ .hwTick →
    ∃ tb, agentStep x s = { s with table := tb } ∧
      ((s.eng.created = false ∨ s.regs.control.getLsbD 31 = false) → tb = s.table) ∧
      (∀ j, (isVlan (Table.entry s.table j) = true ∨
          (isAddr (Table.entry s.table j) = true ∧
            (isMcast (Table.entry s.table j) = true ∨ (Table.entry s.table j).getLsbD 62 = false))) →
        Table.entry tb j = Table.entry s.table j) ∧
      (∀ j, Table.entry tb j ≠ Table.entry s.table j →
        j < s.cfg.n ∧ ageable (Table.entry tb j) = true ∧
          ((getF s.cfg (Table.entry tb j) .portNum).toNat < s.cfg.p ∨
            getF s.cfg (Table.entry tb j) .portNum = getF s.cfg (Table.entry s.table j) .portNum)) ∧
      ∀ j j', Table.entry tb j ≠ Table.entry s.table j → Table.entry tb j' ≠ Table.entry s.table j' → j = j') ∧
  ∀ (s : State) (i : Nat), cfgWf s.cfg = true → s.eng.created = true → s.regs.control.getLsbD 31 = true → i < s.cfg.n →
    let old := Table.entry s.table i
    (∀ u : Learned, u.mac.getLsbD 40 = false → u.port < s.cfg.p → (isFree old = true ∨ ageable old = true) →
      ∃ e, agentStep (.fwdLearn i u) s = { s with table := Table.store s.table i e } ∧
        entryType e = (if u.vid.isSome then .vlanAddr else .addr) ∧ getVid e = u.vid.getD 0 ∧ getAddr e = u.mac ∧
        ucastType e = (if u.touched then .touched else .untouched) ∧ e.getLsbD 64 = false ∧ e.getLsbD 65 = false ∧
        getF s.cfg e .portNum = BitVec.ofNat 32 u.port ∧ ∀ b, 66 + pnb s.cfg ≤ b → e.getLsbD b = false) ∧
    (ageable old = true → ucastType old = .untouched →
      ∃ e, agentStep (.fwdTouch i) s = { s with table := Table.store s.table i e } ∧
        ucastType e = .touched ∧ KeptOutside [(62, 2)] old e) ∧
    (∀ p : Nat, ageable old = true → old.getLsbD 64 = false → p < s.cfg.p →
      ∃ e, agentStep (.fwdMove i p) s = { s with table := Table.store s.table i e } ∧
        ucastType e = .touched ∧ getF s.cfg e .portNum = BitVec.ofNat 32 p ∧
        KeptOutside [(62, 2), (66, pnb s.cfg)] old e)

/-- POWER_LOSS while not started (R346): the registers, every entry, TBLBUF and age_cnt are redrawn and everything else,
with `eng`, `a` and `res`, is kept; each entry of a created engine becomes a free value, and before CREATE, where the
number of entries is not fixed, the redraw is due (log 15). The table stays canonical. -/
def Obligations.PowerLossKeepsTheOwnersState : Prop :=
  ∀ (s : State) (rest : List Move), s.faulted = false → s.agenda = .powerLoss :: rest → Table.wf s.table = true →
    (s.eng.started = false → ∃ g tb b n q k, step s = .next { s with
        agenda := rest, regs := g, table := tb, tblBuf := b, ageCnt := n, tableLost := q, drawCount := k } ∧
      Table.wf tb = true ∧ (s.eng.created = false → q = true) ∧
      (s.eng.created = true → q = false ∧ ∃ k', ∀ j, j < s.cfg.n → Table.entry tb j = drawnImage (k' + 3 * j))) ∧
    (s.eng.started = true → step s = .refused .powerLossWhileStarted)

/-! ## The whole machine -/

/-- R360: what power-on leaves, of the values the spec gives; the rest of State.reset is the model's choice (log 1, log 2,
log 9). -/
def Obligations.ResetLeavesTheStatedValues : Prop :=
  State.reset.eng.created = false ∧ State.reset.eng.started = false ∧ State.reset.eng.swArmed = false ∧
  State.reset.eng.swPending = none ∧ State.reset.eng.contractViolation = false ∧ State.reset.a = Args.reset ∧
  State.reset.res.status = 0 ∧ State.reset.res.index = none ∧ State.reset.res.value = none ∧
  State.reset.res.aux = none ∧ State.reset.res.img = none ∧ State.reset.res.buf = none ∧
  State.reset.faulted = false ∧ State.reset.refused = false ∧
  (namedValue State.reset .control).getLsbD 30 = false ∧ (namedValue State.reset .control).getLsbD 29 = false

/-- The machine's invariant holds at reset (where the table lists nothing, the model's choice, log 1). -/
def Obligations.InvariantHoldsAtReset : Prop := Inv State.reset

/-- Every step keeps the machine's invariant (that no entry is listed before CREATE is the model's choice, log 1 and
log 15): the table stays canonical and within N, the configuration well formed, the
aging mode and the descriptor table those of the configuration, the software timer armed exactly while a SW engine is
started, and `res.STATUS` one of the five codes. -/
def Obligations.EveryStepKeepsTheInvariant : Prop := ∀ s t : State, Inv s → step s = .next t → Inv t

/-- R47: no step clears a sticky mark. -/
def Obligations.StickyMarksAreNeverCleared : Prop :=
  ∀ s t : State, step s = .next t →
    (s.faulted = true → t.faulted = true) ∧ (s.refused = true → t.refused = true) ∧
    (s.eng.contractViolation = true → t.eng.contractViolation = true)

/-- What no instruction changes, under any schedule: the argument registers, the configuration, whether the engine exists,
its aging mode and descriptor table (R276: "No command changes `eng.ctrl` afterwards"), the agenda and the answer of the
last CREATE. The owner's move writes exactly the argument register it names (R23, R349), and no step changes the
constants of the instance (R42, R43). -/
def Obligations.InstructionsKeepTheOwnersRegisters : Prop :=
  (∀ (i : Instr) (s t : State), exec i s = .next t →
    t.a = s.a ∧ t.cfg = s.cfg ∧ t.eng.created = s.eng.created ∧ t.eng.agingMode = s.eng.agingMode ∧
    t.eng.ctrl = s.eng.ctrl ∧ t.agenda = s.agenda ∧ t.lastCreate = s.lastCreate) ∧
  (∀ (s : State) (w : ArgWrite) (rest : List Move), s.faulted = false → s.agenda = .arg w :: rest →
    step s = .next { s with
      agenda := rest
      a := match w with
        | .mac v => { s.a with mac := some v }
        | .vid v => { s.a with vid := some v }
        | .mask0 v => { s.a with mask0 := some v }
        | .mask1 v => { s.a with mask1 := some v }
        | .mask2 v => { s.a with mask2 := some v }
        | .mask3 v => { s.a with mask3 := some v }
        | .value v => { s.a with value := some v }
        | .img v => { s.a with img := some v }
        | .buf v => { s.a with buf := some v } }) ∧
  ∀ s t : State, step s = .next t → t.chip = s.chip

/-- R363: under `Isolated`, with no tick pending, no step of any other agent changes anything. -/
def Obligations.IsolatedAgentsAreInert : Prop :=
  ∀ (s : State) (x : AgentStep), Isolated s → Quiet s → agentStep x s = s

/-- R363, R375: under `Isolated` only the owner changes the table: every command but START, STOP and
CTRL_SET (which may write CONTROL or, for the first two, AGING_TIMER) answers the same state under every schedule as
alone, the schedule apart; an MMIO access takes no schedule. -/
def Obligations.IsolatedCommandsIgnoreTheSchedule : Prop :=
  ∀ (i : Instr) (s t : State), Inv s → Live s → Isolated s → Quiet s →
    (match i with
      | .start | .stop | .ctrlSet _ _ | .mmioRead _ _ | .mmioWrite _ _ _ => False
      | _ => True) →
    exec i { s with sched := [] } = .next t → ∃ q, exec i s = .next { t with sched := q }

/-- R371: an owner's write of ENABLE between a software tick's read and its write is lost: after the tick's write ENABLE
is as it was read. -/
def Obligations.SoftwareTickUndoesTheOwnersWrite : Prop :=
  ∀ s : State, Inv s → Ready s → s.eng.agingMode = .sw → s.eng.swArmed = true → s.eng.swPending = none →
    s.regs.control.getLsbD 31 = true → s.a.value = some 0 →
    ∃ t, exec (.ctrlSet 0 0) (agentStep .tickRead s) = .next t ∧ t.res.status = 0 ∧
      t.regs.control.getLsbD 31 = false ∧ (agentStep .tickWrite t).regs.control.getLsbD 31 = true
end

