-- ==== Sys2Proof/Laws/State.lean ====
section
/-! SUPPORT. One lemma per field per update of the state, each true by rfl. -/

namespace Sys2Proof.Machine

@[simp] theorem setEntry_regs (i : Nat) (e : Image) (s : State) : (setEntry i e s).regs = s.regs := rfl
@[simp] theorem setEntry_tblBuf (i : Nat) (e : Image) (s : State) : (setEntry i e s).tblBuf = s.tblBuf := rfl
@[simp] theorem setEntry_ageCnt (i : Nat) (e : Image) (s : State) : (setEntry i e s).ageCnt = s.ageCnt := rfl
@[simp] theorem setEntry_eng (i : Nat) (e : Image) (s : State) : (setEntry i e s).eng = s.eng := rfl
@[simp] theorem setEntry_a (i : Nat) (e : Image) (s : State) : (setEntry i e s).a = s.a := rfl
@[simp] theorem setEntry_res (i : Nat) (e : Image) (s : State) : (setEntry i e s).res = s.res := rfl
@[simp] theorem setEntry_faulted (i : Nat) (e : Image) (s : State) : (setEntry i e s).faulted = s.faulted := rfl
@[simp] theorem setEntry_refused (i : Nat) (e : Image) (s : State) : (setEntry i e s).refused = s.refused := rfl
@[simp] theorem setEntry_chip (i : Nat) (e : Image) (s : State) : (setEntry i e s).chip = s.chip := rfl
@[simp] theorem setEntry_cfg (i : Nat) (e : Image) (s : State) : (setEntry i e s).cfg = s.cfg := rfl
@[simp] theorem setEntry_tableLost (i : Nat) (e : Image) (s : State) : (setEntry i e s).tableLost = s.tableLost := rfl
@[simp] theorem setEntry_drawCount (i : Nat) (e : Image) (s : State) : (setEntry i e s).drawCount = s.drawCount := rfl
@[simp] theorem setEntry_sched (i : Nat) (e : Image) (s : State) : (setEntry i e s).sched = s.sched := rfl
@[simp] theorem setEntry_agenda (i : Nat) (e : Image) (s : State) : (setEntry i e s).agenda = s.agenda := rfl
@[simp] theorem setEntry_busData (i : Nat) (e : Image) (s : State) : (setEntry i e s).busData = s.busData := rfl
@[simp] theorem setEntry_lastCreate (i : Nat) (e : Image) (s : State) : (setEntry i e s).lastCreate = s.lastCreate := rfl
@[simp] theorem setEntry_lastFault (i : Nat) (e : Image) (s : State) : (setEntry i e s).lastFault = s.lastFault := rfl
@[simp] theorem setEntry_lastRefusal (i : Nat) (e : Image) (s : State) : (setEntry i e s).lastRefusal = s.lastRefusal := rfl
@[simp] theorem setEntry_table (i : Nat) (e : Image) (s : State) : (setEntry i e s).table = Table.store s.table i e := rfl

@[simp] theorem commitEntry_regs (i : Nat) (e : Image) (s : State) : (commitEntry i e s).regs = s.regs := rfl
@[simp] theorem commitEntry_ageCnt (i : Nat) (e : Image) (s : State) : (commitEntry i e s).ageCnt = s.ageCnt := rfl
@[simp] theorem commitEntry_eng (i : Nat) (e : Image) (s : State) : (commitEntry i e s).eng = s.eng := rfl
@[simp] theorem commitEntry_a (i : Nat) (e : Image) (s : State) : (commitEntry i e s).a = s.a := rfl
@[simp] theorem commitEntry_res (i : Nat) (e : Image) (s : State) : (commitEntry i e s).res = s.res := rfl
@[simp] theorem commitEntry_faulted (i : Nat) (e : Image) (s : State) : (commitEntry i e s).faulted = s.faulted := rfl
@[simp] theorem commitEntry_refused (i : Nat) (e : Image) (s : State) : (commitEntry i e s).refused = s.refused := rfl
@[simp] theorem commitEntry_chip (i : Nat) (e : Image) (s : State) : (commitEntry i e s).chip = s.chip := rfl
@[simp] theorem commitEntry_cfg (i : Nat) (e : Image) (s : State) : (commitEntry i e s).cfg = s.cfg := rfl
@[simp] theorem commitEntry_tableLost (i : Nat) (e : Image) (s : State) : (commitEntry i e s).tableLost = s.tableLost := rfl
@[simp] theorem commitEntry_drawCount (i : Nat) (e : Image) (s : State) : (commitEntry i e s).drawCount = s.drawCount := rfl
@[simp] theorem commitEntry_sched (i : Nat) (e : Image) (s : State) : (commitEntry i e s).sched = s.sched := rfl
@[simp] theorem commitEntry_agenda (i : Nat) (e : Image) (s : State) : (commitEntry i e s).agenda = s.agenda := rfl
@[simp] theorem commitEntry_busData (i : Nat) (e : Image) (s : State) : (commitEntry i e s).busData = s.busData := rfl
@[simp] theorem commitEntry_lastCreate (i : Nat) (e : Image) (s : State) : (commitEntry i e s).lastCreate = s.lastCreate := rfl
@[simp] theorem commitEntry_lastFault (i : Nat) (e : Image) (s : State) : (commitEntry i e s).lastFault = s.lastFault := rfl
@[simp] theorem commitEntry_lastRefusal (i : Nat) (e : Image) (s : State) : (commitEntry i e s).lastRefusal = s.lastRefusal := rfl
@[simp] theorem commitEntry_table (i : Nat) (e : Image) (s : State) : (commitEntry i e s).table = Table.store s.table i e := rfl
@[simp] theorem commitEntry_tblBuf (i : Nat) (e : Image) (s : State) : (commitEntry i e s).tblBuf = e := rfl

@[simp] theorem selectEntry_snd_regs (i : Nat) (s : State) : ((selectEntry i s).2).regs = s.regs := rfl
@[simp] theorem selectEntry_snd_table (i : Nat) (s : State) : ((selectEntry i s).2).table = s.table := rfl
@[simp] theorem selectEntry_snd_ageCnt (i : Nat) (s : State) : ((selectEntry i s).2).ageCnt = s.ageCnt := rfl
@[simp] theorem selectEntry_snd_eng (i : Nat) (s : State) : ((selectEntry i s).2).eng = s.eng := rfl
@[simp] theorem selectEntry_snd_a (i : Nat) (s : State) : ((selectEntry i s).2).a = s.a := rfl
@[simp] theorem selectEntry_snd_res (i : Nat) (s : State) : ((selectEntry i s).2).res = s.res := rfl
@[simp] theorem selectEntry_snd_faulted (i : Nat) (s : State) : ((selectEntry i s).2).faulted = s.faulted := rfl
@[simp] theorem selectEntry_snd_refused (i : Nat) (s : State) : ((selectEntry i s).2).refused = s.refused := rfl
@[simp] theorem selectEntry_snd_chip (i : Nat) (s : State) : ((selectEntry i s).2).chip = s.chip := rfl
@[simp] theorem selectEntry_snd_cfg (i : Nat) (s : State) : ((selectEntry i s).2).cfg = s.cfg := rfl
@[simp] theorem selectEntry_snd_tableLost (i : Nat) (s : State) : ((selectEntry i s).2).tableLost = s.tableLost := rfl
@[simp] theorem selectEntry_snd_drawCount (i : Nat) (s : State) : ((selectEntry i s).2).drawCount = s.drawCount := rfl
@[simp] theorem selectEntry_snd_sched (i : Nat) (s : State) : ((selectEntry i s).2).sched = s.sched := rfl
@[simp] theorem selectEntry_snd_agenda (i : Nat) (s : State) : ((selectEntry i s).2).agenda = s.agenda := rfl
@[simp] theorem selectEntry_snd_busData (i : Nat) (s : State) : ((selectEntry i s).2).busData = s.busData := rfl
@[simp] theorem selectEntry_snd_lastCreate (i : Nat) (s : State) : ((selectEntry i s).2).lastCreate = s.lastCreate := rfl
@[simp] theorem selectEntry_snd_lastFault (i : Nat) (s : State) : ((selectEntry i s).2).lastFault = s.lastFault := rfl
@[simp] theorem selectEntry_snd_lastRefusal (i : Nat) (s : State) : ((selectEntry i s).2).lastRefusal = s.lastRefusal := rfl
@[simp] theorem selectEntry_snd_tblBuf (i : Nat) (s : State) : ((selectEntry i s).2).tblBuf = Table.entry s.table i := rfl

@[simp] theorem setRegs_table (f : Regs → Regs) (s : State) : (setRegs f s).table = s.table := rfl
@[simp] theorem setRegs_tblBuf (f : Regs → Regs) (s : State) : (setRegs f s).tblBuf = s.tblBuf := rfl
@[simp] theorem setRegs_ageCnt (f : Regs → Regs) (s : State) : (setRegs f s).ageCnt = s.ageCnt := rfl
@[simp] theorem setRegs_eng (f : Regs → Regs) (s : State) : (setRegs f s).eng = s.eng := rfl
@[simp] theorem setRegs_a (f : Regs → Regs) (s : State) : (setRegs f s).a = s.a := rfl
@[simp] theorem setRegs_res (f : Regs → Regs) (s : State) : (setRegs f s).res = s.res := rfl
@[simp] theorem setRegs_faulted (f : Regs → Regs) (s : State) : (setRegs f s).faulted = s.faulted := rfl
@[simp] theorem setRegs_refused (f : Regs → Regs) (s : State) : (setRegs f s).refused = s.refused := rfl
@[simp] theorem setRegs_chip (f : Regs → Regs) (s : State) : (setRegs f s).chip = s.chip := rfl
@[simp] theorem setRegs_cfg (f : Regs → Regs) (s : State) : (setRegs f s).cfg = s.cfg := rfl
@[simp] theorem setRegs_tableLost (f : Regs → Regs) (s : State) : (setRegs f s).tableLost = s.tableLost := rfl
@[simp] theorem setRegs_drawCount (f : Regs → Regs) (s : State) : (setRegs f s).drawCount = s.drawCount := rfl
@[simp] theorem setRegs_sched (f : Regs → Regs) (s : State) : (setRegs f s).sched = s.sched := rfl
@[simp] theorem setRegs_agenda (f : Regs → Regs) (s : State) : (setRegs f s).agenda = s.agenda := rfl
@[simp] theorem setRegs_busData (f : Regs → Regs) (s : State) : (setRegs f s).busData = s.busData := rfl
@[simp] theorem setRegs_lastCreate (f : Regs → Regs) (s : State) : (setRegs f s).lastCreate = s.lastCreate := rfl
@[simp] theorem setRegs_lastFault (f : Regs → Regs) (s : State) : (setRegs f s).lastFault = s.lastFault := rfl
@[simp] theorem setRegs_lastRefusal (f : Regs → Regs) (s : State) : (setRegs f s).lastRefusal = s.lastRefusal := rfl
@[simp] theorem setRegs_regs (f : Regs → Regs) (s : State) : (setRegs f s).regs = f s.regs := rfl

@[simp] theorem setRes_regs (f : Results → Results) (s : State) : (setRes f s).regs = s.regs := rfl
@[simp] theorem setRes_table (f : Results → Results) (s : State) : (setRes f s).table = s.table := rfl
@[simp] theorem setRes_tblBuf (f : Results → Results) (s : State) : (setRes f s).tblBuf = s.tblBuf := rfl
@[simp] theorem setRes_ageCnt (f : Results → Results) (s : State) : (setRes f s).ageCnt = s.ageCnt := rfl
@[simp] theorem setRes_eng (f : Results → Results) (s : State) : (setRes f s).eng = s.eng := rfl
@[simp] theorem setRes_a (f : Results → Results) (s : State) : (setRes f s).a = s.a := rfl
@[simp] theorem setRes_faulted (f : Results → Results) (s : State) : (setRes f s).faulted = s.faulted := rfl
@[simp] theorem setRes_refused (f : Results → Results) (s : State) : (setRes f s).refused = s.refused := rfl
@[simp] theorem setRes_chip (f : Results → Results) (s : State) : (setRes f s).chip = s.chip := rfl
@[simp] theorem setRes_cfg (f : Results → Results) (s : State) : (setRes f s).cfg = s.cfg := rfl
@[simp] theorem setRes_tableLost (f : Results → Results) (s : State) : (setRes f s).tableLost = s.tableLost := rfl
@[simp] theorem setRes_drawCount (f : Results → Results) (s : State) : (setRes f s).drawCount = s.drawCount := rfl
@[simp] theorem setRes_sched (f : Results → Results) (s : State) : (setRes f s).sched = s.sched := rfl
@[simp] theorem setRes_agenda (f : Results → Results) (s : State) : (setRes f s).agenda = s.agenda := rfl
@[simp] theorem setRes_busData (f : Results → Results) (s : State) : (setRes f s).busData = s.busData := rfl
@[simp] theorem setRes_lastCreate (f : Results → Results) (s : State) : (setRes f s).lastCreate = s.lastCreate := rfl
@[simp] theorem setRes_lastFault (f : Results → Results) (s : State) : (setRes f s).lastFault = s.lastFault := rfl
@[simp] theorem setRes_lastRefusal (f : Results → Results) (s : State) : (setRes f s).lastRefusal = s.lastRefusal := rfl
@[simp] theorem setRes_res (f : Results → Results) (s : State) : (setRes f s).res = f s.res := rfl

@[simp] theorem withStatus_regs (c : Status) (s : State) : (withStatus c s).regs = s.regs := rfl
@[simp] theorem withStatus_table (c : Status) (s : State) : (withStatus c s).table = s.table := rfl
@[simp] theorem withStatus_tblBuf (c : Status) (s : State) : (withStatus c s).tblBuf = s.tblBuf := rfl
@[simp] theorem withStatus_ageCnt (c : Status) (s : State) : (withStatus c s).ageCnt = s.ageCnt := rfl
@[simp] theorem withStatus_eng (c : Status) (s : State) : (withStatus c s).eng = s.eng := rfl
@[simp] theorem withStatus_a (c : Status) (s : State) : (withStatus c s).a = s.a := rfl
@[simp] theorem withStatus_faulted (c : Status) (s : State) : (withStatus c s).faulted = s.faulted := rfl
@[simp] theorem withStatus_refused (c : Status) (s : State) : (withStatus c s).refused = s.refused := rfl
@[simp] theorem withStatus_chip (c : Status) (s : State) : (withStatus c s).chip = s.chip := rfl
@[simp] theorem withStatus_cfg (c : Status) (s : State) : (withStatus c s).cfg = s.cfg := rfl
@[simp] theorem withStatus_tableLost (c : Status) (s : State) : (withStatus c s).tableLost = s.tableLost := rfl
@[simp] theorem withStatus_drawCount (c : Status) (s : State) : (withStatus c s).drawCount = s.drawCount := rfl
@[simp] theorem withStatus_sched (c : Status) (s : State) : (withStatus c s).sched = s.sched := rfl
@[simp] theorem withStatus_agenda (c : Status) (s : State) : (withStatus c s).agenda = s.agenda := rfl
@[simp] theorem withStatus_busData (c : Status) (s : State) : (withStatus c s).busData = s.busData := rfl
@[simp] theorem withStatus_lastCreate (c : Status) (s : State) : (withStatus c s).lastCreate = s.lastCreate := rfl
@[simp] theorem withStatus_lastFault (c : Status) (s : State) : (withStatus c s).lastFault = s.lastFault := rfl
@[simp] theorem withStatus_lastRefusal (c : Status) (s : State) : (withStatus c s).lastRefusal = s.lastRefusal := rfl
@[simp] theorem withStatus_res_status (c : Status) (s : State) : (withStatus c s).res.status = statusCode c := rfl
@[simp] theorem withStatus_res_index (c : Status) (s : State) : (withStatus c s).res.index = s.res.index := rfl
@[simp] theorem withStatus_res_value (c : Status) (s : State) : (withStatus c s).res.value = s.res.value := rfl
@[simp] theorem withStatus_res_aux (c : Status) (s : State) : (withStatus c s).res.aux = s.res.aux := rfl
@[simp] theorem withStatus_res_img (c : Status) (s : State) : (withStatus c s).res.img = s.res.img := rfl
@[simp] theorem withStatus_res_buf (c : Status) (s : State) : (withStatus c s).res.buf = s.res.buf := rfl

@[simp] theorem setIndex_regs (i : Nat) (s : State) : (setIndex i s).regs = s.regs := rfl
@[simp] theorem setIndex_table (i : Nat) (s : State) : (setIndex i s).table = s.table := rfl
@[simp] theorem setIndex_tblBuf (i : Nat) (s : State) : (setIndex i s).tblBuf = s.tblBuf := rfl
@[simp] theorem setIndex_ageCnt (i : Nat) (s : State) : (setIndex i s).ageCnt = s.ageCnt := rfl
@[simp] theorem setIndex_eng (i : Nat) (s : State) : (setIndex i s).eng = s.eng := rfl
@[simp] theorem setIndex_a (i : Nat) (s : State) : (setIndex i s).a = s.a := rfl
@[simp] theorem setIndex_faulted (i : Nat) (s : State) : (setIndex i s).faulted = s.faulted := rfl
@[simp] theorem setIndex_refused (i : Nat) (s : State) : (setIndex i s).refused = s.refused := rfl
@[simp] theorem setIndex_chip (i : Nat) (s : State) : (setIndex i s).chip = s.chip := rfl
@[simp] theorem setIndex_cfg (i : Nat) (s : State) : (setIndex i s).cfg = s.cfg := rfl
@[simp] theorem setIndex_tableLost (i : Nat) (s : State) : (setIndex i s).tableLost = s.tableLost := rfl
@[simp] theorem setIndex_drawCount (i : Nat) (s : State) : (setIndex i s).drawCount = s.drawCount := rfl
@[simp] theorem setIndex_sched (i : Nat) (s : State) : (setIndex i s).sched = s.sched := rfl
@[simp] theorem setIndex_agenda (i : Nat) (s : State) : (setIndex i s).agenda = s.agenda := rfl
@[simp] theorem setIndex_busData (i : Nat) (s : State) : (setIndex i s).busData = s.busData := rfl
@[simp] theorem setIndex_lastCreate (i : Nat) (s : State) : (setIndex i s).lastCreate = s.lastCreate := rfl
@[simp] theorem setIndex_lastFault (i : Nat) (s : State) : (setIndex i s).lastFault = s.lastFault := rfl
@[simp] theorem setIndex_lastRefusal (i : Nat) (s : State) : (setIndex i s).lastRefusal = s.lastRefusal := rfl
@[simp] theorem setIndex_res_status (i : Nat) (s : State) : (setIndex i s).res.status = s.res.status := rfl
@[simp] theorem setIndex_res_index (i : Nat) (s : State) : (setIndex i s).res.index = some (BitVec.ofNat 32 i) := rfl
@[simp] theorem setIndex_res_value (i : Nat) (s : State) : (setIndex i s).res.value = s.res.value := rfl
@[simp] theorem setIndex_res_aux (i : Nat) (s : State) : (setIndex i s).res.aux = s.res.aux := rfl
@[simp] theorem setIndex_res_img (i : Nat) (s : State) : (setIndex i s).res.img = s.res.img := rfl
@[simp] theorem setIndex_res_buf (i : Nat) (s : State) : (setIndex i s).res.buf = s.res.buf := rfl

@[simp] theorem setImg_regs (e : Image) (s : State) : (setImg e s).regs = s.regs := rfl
@[simp] theorem setImg_table (e : Image) (s : State) : (setImg e s).table = s.table := rfl
@[simp] theorem setImg_tblBuf (e : Image) (s : State) : (setImg e s).tblBuf = s.tblBuf := rfl
@[simp] theorem setImg_ageCnt (e : Image) (s : State) : (setImg e s).ageCnt = s.ageCnt := rfl
@[simp] theorem setImg_eng (e : Image) (s : State) : (setImg e s).eng = s.eng := rfl
@[simp] theorem setImg_a (e : Image) (s : State) : (setImg e s).a = s.a := rfl
@[simp] theorem setImg_faulted (e : Image) (s : State) : (setImg e s).faulted = s.faulted := rfl
@[simp] theorem setImg_refused (e : Image) (s : State) : (setImg e s).refused = s.refused := rfl
@[simp] theorem setImg_chip (e : Image) (s : State) : (setImg e s).chip = s.chip := rfl
@[simp] theorem setImg_cfg (e : Image) (s : State) : (setImg e s).cfg = s.cfg := rfl
@[simp] theorem setImg_tableLost (e : Image) (s : State) : (setImg e s).tableLost = s.tableLost := rfl
@[simp] theorem setImg_drawCount (e : Image) (s : State) : (setImg e s).drawCount = s.drawCount := rfl
@[simp] theorem setImg_sched (e : Image) (s : State) : (setImg e s).sched = s.sched := rfl
@[simp] theorem setImg_agenda (e : Image) (s : State) : (setImg e s).agenda = s.agenda := rfl
@[simp] theorem setImg_busData (e : Image) (s : State) : (setImg e s).busData = s.busData := rfl
@[simp] theorem setImg_lastCreate (e : Image) (s : State) : (setImg e s).lastCreate = s.lastCreate := rfl
@[simp] theorem setImg_lastFault (e : Image) (s : State) : (setImg e s).lastFault = s.lastFault := rfl
@[simp] theorem setImg_lastRefusal (e : Image) (s : State) : (setImg e s).lastRefusal = s.lastRefusal := rfl
@[simp] theorem setImg_res_status (e : Image) (s : State) : (setImg e s).res.status = s.res.status := rfl
@[simp] theorem setImg_res_index (e : Image) (s : State) : (setImg e s).res.index = s.res.index := rfl
@[simp] theorem setImg_res_value (e : Image) (s : State) : (setImg e s).res.value = s.res.value := rfl
@[simp] theorem setImg_res_aux (e : Image) (s : State) : (setImg e s).res.aux = s.res.aux := rfl
@[simp] theorem setImg_res_img (e : Image) (s : State) : (setImg e s).res.img = some e := rfl
@[simp] theorem setImg_res_buf (e : Image) (s : State) : (setImg e s).res.buf = s.res.buf := rfl

@[simp] theorem setValue_regs (v : Word) (s : State) : (setValue v s).regs = s.regs := rfl
@[simp] theorem setValue_table (v : Word) (s : State) : (setValue v s).table = s.table := rfl
@[simp] theorem setValue_tblBuf (v : Word) (s : State) : (setValue v s).tblBuf = s.tblBuf := rfl
@[simp] theorem setValue_ageCnt (v : Word) (s : State) : (setValue v s).ageCnt = s.ageCnt := rfl
@[simp] theorem setValue_eng (v : Word) (s : State) : (setValue v s).eng = s.eng := rfl
@[simp] theorem setValue_a (v : Word) (s : State) : (setValue v s).a = s.a := rfl
@[simp] theorem setValue_faulted (v : Word) (s : State) : (setValue v s).faulted = s.faulted := rfl
@[simp] theorem setValue_refused (v : Word) (s : State) : (setValue v s).refused = s.refused := rfl
@[simp] theorem setValue_chip (v : Word) (s : State) : (setValue v s).chip = s.chip := rfl
@[simp] theorem setValue_cfg (v : Word) (s : State) : (setValue v s).cfg = s.cfg := rfl
@[simp] theorem setValue_tableLost (v : Word) (s : State) : (setValue v s).tableLost = s.tableLost := rfl
@[simp] theorem setValue_drawCount (v : Word) (s : State) : (setValue v s).drawCount = s.drawCount := rfl
@[simp] theorem setValue_sched (v : Word) (s : State) : (setValue v s).sched = s.sched := rfl
@[simp] theorem setValue_agenda (v : Word) (s : State) : (setValue v s).agenda = s.agenda := rfl
@[simp] theorem setValue_busData (v : Word) (s : State) : (setValue v s).busData = s.busData := rfl
@[simp] theorem setValue_lastCreate (v : Word) (s : State) : (setValue v s).lastCreate = s.lastCreate := rfl
@[simp] theorem setValue_lastFault (v : Word) (s : State) : (setValue v s).lastFault = s.lastFault := rfl
@[simp] theorem setValue_lastRefusal (v : Word) (s : State) : (setValue v s).lastRefusal = s.lastRefusal := rfl
@[simp] theorem setValue_res_status (v : Word) (s : State) : (setValue v s).res.status = s.res.status := rfl
@[simp] theorem setValue_res_index (v : Word) (s : State) : (setValue v s).res.index = s.res.index := rfl
@[simp] theorem setValue_res_value (v : Word) (s : State) : (setValue v s).res.value = some v := rfl
@[simp] theorem setValue_res_aux (v : Word) (s : State) : (setValue v s).res.aux = s.res.aux := rfl
@[simp] theorem setValue_res_img (v : Word) (s : State) : (setValue v s).res.img = s.res.img := rfl
@[simp] theorem setValue_res_buf (v : Word) (s : State) : (setValue v s).res.buf = s.res.buf := rfl

@[simp] theorem setAux_regs (v : Word) (s : State) : (setAux v s).regs = s.regs := rfl
@[simp] theorem setAux_table (v : Word) (s : State) : (setAux v s).table = s.table := rfl
@[simp] theorem setAux_tblBuf (v : Word) (s : State) : (setAux v s).tblBuf = s.tblBuf := rfl
@[simp] theorem setAux_ageCnt (v : Word) (s : State) : (setAux v s).ageCnt = s.ageCnt := rfl
@[simp] theorem setAux_eng (v : Word) (s : State) : (setAux v s).eng = s.eng := rfl
@[simp] theorem setAux_a (v : Word) (s : State) : (setAux v s).a = s.a := rfl
@[simp] theorem setAux_faulted (v : Word) (s : State) : (setAux v s).faulted = s.faulted := rfl
@[simp] theorem setAux_refused (v : Word) (s : State) : (setAux v s).refused = s.refused := rfl
@[simp] theorem setAux_chip (v : Word) (s : State) : (setAux v s).chip = s.chip := rfl
@[simp] theorem setAux_cfg (v : Word) (s : State) : (setAux v s).cfg = s.cfg := rfl
@[simp] theorem setAux_tableLost (v : Word) (s : State) : (setAux v s).tableLost = s.tableLost := rfl
@[simp] theorem setAux_drawCount (v : Word) (s : State) : (setAux v s).drawCount = s.drawCount := rfl
@[simp] theorem setAux_sched (v : Word) (s : State) : (setAux v s).sched = s.sched := rfl
@[simp] theorem setAux_agenda (v : Word) (s : State) : (setAux v s).agenda = s.agenda := rfl
@[simp] theorem setAux_busData (v : Word) (s : State) : (setAux v s).busData = s.busData := rfl
@[simp] theorem setAux_lastCreate (v : Word) (s : State) : (setAux v s).lastCreate = s.lastCreate := rfl
@[simp] theorem setAux_lastFault (v : Word) (s : State) : (setAux v s).lastFault = s.lastFault := rfl
@[simp] theorem setAux_lastRefusal (v : Word) (s : State) : (setAux v s).lastRefusal = s.lastRefusal := rfl
@[simp] theorem setAux_res_status (v : Word) (s : State) : (setAux v s).res.status = s.res.status := rfl
@[simp] theorem setAux_res_index (v : Word) (s : State) : (setAux v s).res.index = s.res.index := rfl
@[simp] theorem setAux_res_value (v : Word) (s : State) : (setAux v s).res.value = s.res.value := rfl
@[simp] theorem setAux_res_aux (v : Word) (s : State) : (setAux v s).res.aux = some v := rfl
@[simp] theorem setAux_res_img (v : Word) (s : State) : (setAux v s).res.img = s.res.img := rfl
@[simp] theorem setAux_res_buf (v : Word) (s : State) : (setAux v s).res.buf = s.res.buf := rfl

@[simp] theorem setBuf_regs (ws : List Word) (s : State) : (setBuf ws s).regs = s.regs := rfl
@[simp] theorem setBuf_table (ws : List Word) (s : State) : (setBuf ws s).table = s.table := rfl
@[simp] theorem setBuf_tblBuf (ws : List Word) (s : State) : (setBuf ws s).tblBuf = s.tblBuf := rfl
@[simp] theorem setBuf_ageCnt (ws : List Word) (s : State) : (setBuf ws s).ageCnt = s.ageCnt := rfl
@[simp] theorem setBuf_eng (ws : List Word) (s : State) : (setBuf ws s).eng = s.eng := rfl
@[simp] theorem setBuf_a (ws : List Word) (s : State) : (setBuf ws s).a = s.a := rfl
@[simp] theorem setBuf_faulted (ws : List Word) (s : State) : (setBuf ws s).faulted = s.faulted := rfl
@[simp] theorem setBuf_refused (ws : List Word) (s : State) : (setBuf ws s).refused = s.refused := rfl
@[simp] theorem setBuf_chip (ws : List Word) (s : State) : (setBuf ws s).chip = s.chip := rfl
@[simp] theorem setBuf_cfg (ws : List Word) (s : State) : (setBuf ws s).cfg = s.cfg := rfl
@[simp] theorem setBuf_tableLost (ws : List Word) (s : State) : (setBuf ws s).tableLost = s.tableLost := rfl
@[simp] theorem setBuf_drawCount (ws : List Word) (s : State) : (setBuf ws s).drawCount = s.drawCount := rfl
@[simp] theorem setBuf_sched (ws : List Word) (s : State) : (setBuf ws s).sched = s.sched := rfl
@[simp] theorem setBuf_agenda (ws : List Word) (s : State) : (setBuf ws s).agenda = s.agenda := rfl
@[simp] theorem setBuf_busData (ws : List Word) (s : State) : (setBuf ws s).busData = s.busData := rfl
@[simp] theorem setBuf_lastCreate (ws : List Word) (s : State) : (setBuf ws s).lastCreate = s.lastCreate := rfl
@[simp] theorem setBuf_lastFault (ws : List Word) (s : State) : (setBuf ws s).lastFault = s.lastFault := rfl
@[simp] theorem setBuf_lastRefusal (ws : List Word) (s : State) : (setBuf ws s).lastRefusal = s.lastRefusal := rfl
@[simp] theorem setBuf_res_status (ws : List Word) (s : State) : (setBuf ws s).res.status = s.res.status := rfl
@[simp] theorem setBuf_res_index (ws : List Word) (s : State) : (setBuf ws s).res.index = s.res.index := rfl
@[simp] theorem setBuf_res_value (ws : List Word) (s : State) : (setBuf ws s).res.value = s.res.value := rfl
@[simp] theorem setBuf_res_aux (ws : List Word) (s : State) : (setBuf ws s).res.aux = s.res.aux := rfl
@[simp] theorem setBuf_res_img (ws : List Word) (s : State) : (setBuf ws s).res.img = s.res.img := rfl
@[simp] theorem setBuf_res_buf (ws : List Word) (s : State) : (setBuf ws s).res.buf = some ws := rfl

@[simp] theorem raiseFault_regs (r : FaultReason) (s : State) : (raiseFault r s).regs = s.regs := rfl
@[simp] theorem raiseFault_table (r : FaultReason) (s : State) : (raiseFault r s).table = s.table := rfl
@[simp] theorem raiseFault_tblBuf (r : FaultReason) (s : State) : (raiseFault r s).tblBuf = s.tblBuf := rfl
@[simp] theorem raiseFault_ageCnt (r : FaultReason) (s : State) : (raiseFault r s).ageCnt = s.ageCnt := rfl
@[simp] theorem raiseFault_eng (r : FaultReason) (s : State) : (raiseFault r s).eng = s.eng := rfl
@[simp] theorem raiseFault_a (r : FaultReason) (s : State) : (raiseFault r s).a = s.a := rfl
@[simp] theorem raiseFault_res (r : FaultReason) (s : State) : (raiseFault r s).res = s.res := rfl
@[simp] theorem raiseFault_refused (r : FaultReason) (s : State) : (raiseFault r s).refused = s.refused := rfl
@[simp] theorem raiseFault_chip (r : FaultReason) (s : State) : (raiseFault r s).chip = s.chip := rfl
@[simp] theorem raiseFault_cfg (r : FaultReason) (s : State) : (raiseFault r s).cfg = s.cfg := rfl
@[simp] theorem raiseFault_tableLost (r : FaultReason) (s : State) : (raiseFault r s).tableLost = s.tableLost := rfl
@[simp] theorem raiseFault_drawCount (r : FaultReason) (s : State) : (raiseFault r s).drawCount = s.drawCount := rfl
@[simp] theorem raiseFault_sched (r : FaultReason) (s : State) : (raiseFault r s).sched = s.sched := rfl
@[simp] theorem raiseFault_agenda (r : FaultReason) (s : State) : (raiseFault r s).agenda = s.agenda := rfl
@[simp] theorem raiseFault_busData (r : FaultReason) (s : State) : (raiseFault r s).busData = s.busData := rfl
@[simp] theorem raiseFault_lastCreate (r : FaultReason) (s : State) : (raiseFault r s).lastCreate = s.lastCreate := rfl
@[simp] theorem raiseFault_lastRefusal (r : FaultReason) (s : State) : (raiseFault r s).lastRefusal = s.lastRefusal := rfl
@[simp] theorem raiseFault_faulted (r : FaultReason) (s : State) : (raiseFault r s).faulted = true := rfl
@[simp] theorem raiseFault_lastFault (r : FaultReason) (s : State) : (raiseFault r s).lastFault = some r := rfl

@[simp] theorem refuse_regs (r : RefusalReason) (s : State) : (refuse r s).regs = s.regs := rfl
@[simp] theorem refuse_table (r : RefusalReason) (s : State) : (refuse r s).table = s.table := rfl
@[simp] theorem refuse_tblBuf (r : RefusalReason) (s : State) : (refuse r s).tblBuf = s.tblBuf := rfl
@[simp] theorem refuse_ageCnt (r : RefusalReason) (s : State) : (refuse r s).ageCnt = s.ageCnt := rfl
@[simp] theorem refuse_eng (r : RefusalReason) (s : State) : (refuse r s).eng = s.eng := rfl
@[simp] theorem refuse_a (r : RefusalReason) (s : State) : (refuse r s).a = s.a := rfl
@[simp] theorem refuse_res (r : RefusalReason) (s : State) : (refuse r s).res = s.res := rfl
@[simp] theorem refuse_faulted (r : RefusalReason) (s : State) : (refuse r s).faulted = s.faulted := rfl
@[simp] theorem refuse_chip (r : RefusalReason) (s : State) : (refuse r s).chip = s.chip := rfl
@[simp] theorem refuse_cfg (r : RefusalReason) (s : State) : (refuse r s).cfg = s.cfg := rfl
@[simp] theorem refuse_tableLost (r : RefusalReason) (s : State) : (refuse r s).tableLost = s.tableLost := rfl
@[simp] theorem refuse_drawCount (r : RefusalReason) (s : State) : (refuse r s).drawCount = s.drawCount := rfl
@[simp] theorem refuse_sched (r : RefusalReason) (s : State) : (refuse r s).sched = s.sched := rfl
@[simp] theorem refuse_agenda (r : RefusalReason) (s : State) : (refuse r s).agenda = s.agenda := rfl
@[simp] theorem refuse_busData (r : RefusalReason) (s : State) : (refuse r s).busData = s.busData := rfl
@[simp] theorem refuse_lastCreate (r : RefusalReason) (s : State) : (refuse r s).lastCreate = s.lastCreate := rfl
@[simp] theorem refuse_lastFault (r : RefusalReason) (s : State) : (refuse r s).lastFault = s.lastFault := rfl
@[simp] theorem refuse_refused (r : RefusalReason) (s : State) : (refuse r s).refused = true := rfl
@[simp] theorem refuse_lastRefusal (r : RefusalReason) (s : State) : (refuse r s).lastRefusal = some r := rfl

@[simp] theorem createFailed_regs (o : CreateOutcome) (s : State) : (createFailed o s).regs = s.regs := rfl
@[simp] theorem createFailed_table (o : CreateOutcome) (s : State) : (createFailed o s).table = s.table := rfl
@[simp] theorem createFailed_tblBuf (o : CreateOutcome) (s : State) : (createFailed o s).tblBuf = s.tblBuf := rfl
@[simp] theorem createFailed_ageCnt (o : CreateOutcome) (s : State) : (createFailed o s).ageCnt = s.ageCnt := rfl
@[simp] theorem createFailed_eng (o : CreateOutcome) (s : State) : (createFailed o s).eng = s.eng := rfl
@[simp] theorem createFailed_a (o : CreateOutcome) (s : State) : (createFailed o s).a = s.a := rfl
@[simp] theorem createFailed_res (o : CreateOutcome) (s : State) : (createFailed o s).res = s.res := rfl
@[simp] theorem createFailed_faulted (o : CreateOutcome) (s : State) : (createFailed o s).faulted = s.faulted := rfl
@[simp] theorem createFailed_refused (o : CreateOutcome) (s : State) : (createFailed o s).refused = s.refused := rfl
@[simp] theorem createFailed_chip (o : CreateOutcome) (s : State) : (createFailed o s).chip = s.chip := rfl
@[simp] theorem createFailed_cfg (o : CreateOutcome) (s : State) : (createFailed o s).cfg = s.cfg := rfl
@[simp] theorem createFailed_tableLost (o : CreateOutcome) (s : State) : (createFailed o s).tableLost = s.tableLost := rfl
@[simp] theorem createFailed_drawCount (o : CreateOutcome) (s : State) : (createFailed o s).drawCount = s.drawCount := rfl
@[simp] theorem createFailed_sched (o : CreateOutcome) (s : State) : (createFailed o s).sched = s.sched := rfl
@[simp] theorem createFailed_agenda (o : CreateOutcome) (s : State) : (createFailed o s).agenda = s.agenda := rfl
@[simp] theorem createFailed_busData (o : CreateOutcome) (s : State) : (createFailed o s).busData = s.busData := rfl
@[simp] theorem createFailed_lastFault (o : CreateOutcome) (s : State) : (createFailed o s).lastFault = s.lastFault := rfl
@[simp] theorem createFailed_lastRefusal (o : CreateOutcome) (s : State) : (createFailed o s).lastRefusal = s.lastRefusal := rfl
@[simp] theorem createFailed_lastCreate (o : CreateOutcome) (s : State) : (createFailed o s).lastCreate = some o := rfl

@[simp] theorem drawWord_snd_regs (s : State) : ((drawWord s).2).regs = s.regs := rfl
@[simp] theorem drawWord_snd_table (s : State) : ((drawWord s).2).table = s.table := rfl
@[simp] theorem drawWord_snd_tblBuf (s : State) : ((drawWord s).2).tblBuf = s.tblBuf := rfl
@[simp] theorem drawWord_snd_ageCnt (s : State) : ((drawWord s).2).ageCnt = s.ageCnt := rfl
@[simp] theorem drawWord_snd_eng (s : State) : ((drawWord s).2).eng = s.eng := rfl
@[simp] theorem drawWord_snd_a (s : State) : ((drawWord s).2).a = s.a := rfl
@[simp] theorem drawWord_snd_res (s : State) : ((drawWord s).2).res = s.res := rfl
@[simp] theorem drawWord_snd_faulted (s : State) : ((drawWord s).2).faulted = s.faulted := rfl
@[simp] theorem drawWord_snd_refused (s : State) : ((drawWord s).2).refused = s.refused := rfl
@[simp] theorem drawWord_snd_chip (s : State) : ((drawWord s).2).chip = s.chip := rfl
@[simp] theorem drawWord_snd_cfg (s : State) : ((drawWord s).2).cfg = s.cfg := rfl
@[simp] theorem drawWord_snd_tableLost (s : State) : ((drawWord s).2).tableLost = s.tableLost := rfl
@[simp] theorem drawWord_snd_sched (s : State) : ((drawWord s).2).sched = s.sched := rfl
@[simp] theorem drawWord_snd_agenda (s : State) : ((drawWord s).2).agenda = s.agenda := rfl
@[simp] theorem drawWord_snd_busData (s : State) : ((drawWord s).2).busData = s.busData := rfl
@[simp] theorem drawWord_snd_lastCreate (s : State) : ((drawWord s).2).lastCreate = s.lastCreate := rfl
@[simp] theorem drawWord_snd_lastFault (s : State) : ((drawWord s).2).lastFault = s.lastFault := rfl
@[simp] theorem drawWord_snd_lastRefusal (s : State) : ((drawWord s).2).lastRefusal = s.lastRefusal := rfl
@[simp] theorem drawWord_snd_drawCount (s : State) : ((drawWord s).2).drawCount = s.drawCount + 1 := rfl

@[simp] theorem drawBool_snd_regs (s : State) : ((drawBool s).2).regs = s.regs := rfl
@[simp] theorem drawBool_snd_table (s : State) : ((drawBool s).2).table = s.table := rfl
@[simp] theorem drawBool_snd_tblBuf (s : State) : ((drawBool s).2).tblBuf = s.tblBuf := rfl
@[simp] theorem drawBool_snd_ageCnt (s : State) : ((drawBool s).2).ageCnt = s.ageCnt := rfl
@[simp] theorem drawBool_snd_eng (s : State) : ((drawBool s).2).eng = s.eng := rfl
@[simp] theorem drawBool_snd_a (s : State) : ((drawBool s).2).a = s.a := rfl
@[simp] theorem drawBool_snd_res (s : State) : ((drawBool s).2).res = s.res := rfl
@[simp] theorem drawBool_snd_faulted (s : State) : ((drawBool s).2).faulted = s.faulted := rfl
@[simp] theorem drawBool_snd_refused (s : State) : ((drawBool s).2).refused = s.refused := rfl
@[simp] theorem drawBool_snd_chip (s : State) : ((drawBool s).2).chip = s.chip := rfl
@[simp] theorem drawBool_snd_cfg (s : State) : ((drawBool s).2).cfg = s.cfg := rfl
@[simp] theorem drawBool_snd_tableLost (s : State) : ((drawBool s).2).tableLost = s.tableLost := rfl
@[simp] theorem drawBool_snd_sched (s : State) : ((drawBool s).2).sched = s.sched := rfl
@[simp] theorem drawBool_snd_agenda (s : State) : ((drawBool s).2).agenda = s.agenda := rfl
@[simp] theorem drawBool_snd_busData (s : State) : ((drawBool s).2).busData = s.busData := rfl
@[simp] theorem drawBool_snd_lastCreate (s : State) : ((drawBool s).2).lastCreate = s.lastCreate := rfl
@[simp] theorem drawBool_snd_lastFault (s : State) : ((drawBool s).2).lastFault = s.lastFault := rfl
@[simp] theorem drawBool_snd_lastRefusal (s : State) : ((drawBool s).2).lastRefusal = s.lastRefusal := rfl
@[simp] theorem drawBool_snd_drawCount (s : State) : ((drawBool s).2).drawCount = s.drawCount + 1 := rfl

@[simp] theorem setArmed_regs (b : Bool) (s : State) : (setArmed b s).regs = s.regs := rfl
@[simp] theorem setArmed_table (b : Bool) (s : State) : (setArmed b s).table = s.table := rfl
@[simp] theorem setArmed_tblBuf (b : Bool) (s : State) : (setArmed b s).tblBuf = s.tblBuf := rfl
@[simp] theorem setArmed_ageCnt (b : Bool) (s : State) : (setArmed b s).ageCnt = s.ageCnt := rfl
@[simp] theorem setArmed_a (b : Bool) (s : State) : (setArmed b s).a = s.a := rfl
@[simp] theorem setArmed_res (b : Bool) (s : State) : (setArmed b s).res = s.res := rfl
@[simp] theorem setArmed_faulted (b : Bool) (s : State) : (setArmed b s).faulted = s.faulted := rfl
@[simp] theorem setArmed_refused (b : Bool) (s : State) : (setArmed b s).refused = s.refused := rfl
@[simp] theorem setArmed_chip (b : Bool) (s : State) : (setArmed b s).chip = s.chip := rfl
@[simp] theorem setArmed_cfg (b : Bool) (s : State) : (setArmed b s).cfg = s.cfg := rfl
@[simp] theorem setArmed_tableLost (b : Bool) (s : State) : (setArmed b s).tableLost = s.tableLost := rfl
@[simp] theorem setArmed_drawCount (b : Bool) (s : State) : (setArmed b s).drawCount = s.drawCount := rfl
@[simp] theorem setArmed_sched (b : Bool) (s : State) : (setArmed b s).sched = s.sched := rfl
@[simp] theorem setArmed_agenda (b : Bool) (s : State) : (setArmed b s).agenda = s.agenda := rfl
@[simp] theorem setArmed_busData (b : Bool) (s : State) : (setArmed b s).busData = s.busData := rfl
@[simp] theorem setArmed_lastCreate (b : Bool) (s : State) : (setArmed b s).lastCreate = s.lastCreate := rfl
@[simp] theorem setArmed_lastFault (b : Bool) (s : State) : (setArmed b s).lastFault = s.lastFault := rfl
@[simp] theorem setArmed_lastRefusal (b : Bool) (s : State) : (setArmed b s).lastRefusal = s.lastRefusal := rfl
@[simp] theorem setArmed_eng_swArmed (b : Bool) (s : State) : (setArmed b s).eng.swArmed = b := rfl
@[simp] theorem setArmed_eng_created (b : Bool) (s : State) : (setArmed b s).eng.created = s.eng.created := rfl
@[simp] theorem setArmed_eng_started (b : Bool) (s : State) : (setArmed b s).eng.started = s.eng.started := rfl
@[simp] theorem setArmed_eng_untagVid (b : Bool) (s : State) : (setArmed b s).eng.untagVid = s.eng.untagVid := rfl
@[simp] theorem setArmed_eng_agingMode (b : Bool) (s : State) : (setArmed b s).eng.agingMode = s.eng.agingMode := rfl
@[simp] theorem setArmed_eng_swPending (b : Bool) (s : State) : (setArmed b s).eng.swPending = s.eng.swPending := rfl
@[simp] theorem setArmed_eng_ctrl (b : Bool) (s : State) : (setArmed b s).eng.ctrl = s.eng.ctrl := rfl
@[simp] theorem setArmed_eng_contractViolation (b : Bool) (s : State) : (setArmed b s).eng.contractViolation = s.eng.contractViolation := rfl

@[simp] theorem setStarted_regs (b : Bool) (s : State) : (setStarted b s).regs = s.regs := rfl
@[simp] theorem setStarted_table (b : Bool) (s : State) : (setStarted b s).table = s.table := rfl
@[simp] theorem setStarted_tblBuf (b : Bool) (s : State) : (setStarted b s).tblBuf = s.tblBuf := rfl
@[simp] theorem setStarted_ageCnt (b : Bool) (s : State) : (setStarted b s).ageCnt = s.ageCnt := rfl
@[simp] theorem setStarted_a (b : Bool) (s : State) : (setStarted b s).a = s.a := rfl
@[simp] theorem setStarted_res (b : Bool) (s : State) : (setStarted b s).res = s.res := rfl
@[simp] theorem setStarted_faulted (b : Bool) (s : State) : (setStarted b s).faulted = s.faulted := rfl
@[simp] theorem setStarted_refused (b : Bool) (s : State) : (setStarted b s).refused = s.refused := rfl
@[simp] theorem setStarted_chip (b : Bool) (s : State) : (setStarted b s).chip = s.chip := rfl
@[simp] theorem setStarted_cfg (b : Bool) (s : State) : (setStarted b s).cfg = s.cfg := rfl
@[simp] theorem setStarted_tableLost (b : Bool) (s : State) : (setStarted b s).tableLost = s.tableLost := rfl
@[simp] theorem setStarted_drawCount (b : Bool) (s : State) : (setStarted b s).drawCount = s.drawCount := rfl
@[simp] theorem setStarted_sched (b : Bool) (s : State) : (setStarted b s).sched = s.sched := rfl
@[simp] theorem setStarted_agenda (b : Bool) (s : State) : (setStarted b s).agenda = s.agenda := rfl
@[simp] theorem setStarted_busData (b : Bool) (s : State) : (setStarted b s).busData = s.busData := rfl
@[simp] theorem setStarted_lastCreate (b : Bool) (s : State) : (setStarted b s).lastCreate = s.lastCreate := rfl
@[simp] theorem setStarted_lastFault (b : Bool) (s : State) : (setStarted b s).lastFault = s.lastFault := rfl
@[simp] theorem setStarted_lastRefusal (b : Bool) (s : State) : (setStarted b s).lastRefusal = s.lastRefusal := rfl
@[simp] theorem setStarted_eng_started (b : Bool) (s : State) : (setStarted b s).eng.started = b := rfl
@[simp] theorem setStarted_eng_created (b : Bool) (s : State) : (setStarted b s).eng.created = s.eng.created := rfl
@[simp] theorem setStarted_eng_untagVid (b : Bool) (s : State) : (setStarted b s).eng.untagVid = s.eng.untagVid := rfl
@[simp] theorem setStarted_eng_agingMode (b : Bool) (s : State) : (setStarted b s).eng.agingMode = s.eng.agingMode := rfl
@[simp] theorem setStarted_eng_swArmed (b : Bool) (s : State) : (setStarted b s).eng.swArmed = s.eng.swArmed := rfl
@[simp] theorem setStarted_eng_swPending (b : Bool) (s : State) : (setStarted b s).eng.swPending = s.eng.swPending := rfl
@[simp] theorem setStarted_eng_ctrl (b : Bool) (s : State) : (setStarted b s).eng.ctrl = s.eng.ctrl := rfl
@[simp] theorem setStarted_eng_contractViolation (b : Bool) (s : State) : (setStarted b s).eng.contractViolation = s.eng.contractViolation := rfl

@[simp] theorem reportViolation_regs (s : State) : (reportViolation s).regs = s.regs := rfl
@[simp] theorem reportViolation_table (s : State) : (reportViolation s).table = s.table := rfl
@[simp] theorem reportViolation_tblBuf (s : State) : (reportViolation s).tblBuf = s.tblBuf := rfl
@[simp] theorem reportViolation_ageCnt (s : State) : (reportViolation s).ageCnt = s.ageCnt := rfl
@[simp] theorem reportViolation_a (s : State) : (reportViolation s).a = s.a := rfl
@[simp] theorem reportViolation_res (s : State) : (reportViolation s).res = s.res := rfl
@[simp] theorem reportViolation_faulted (s : State) : (reportViolation s).faulted = s.faulted := rfl
@[simp] theorem reportViolation_refused (s : State) : (reportViolation s).refused = s.refused := rfl
@[simp] theorem reportViolation_chip (s : State) : (reportViolation s).chip = s.chip := rfl
@[simp] theorem reportViolation_cfg (s : State) : (reportViolation s).cfg = s.cfg := rfl
@[simp] theorem reportViolation_tableLost (s : State) : (reportViolation s).tableLost = s.tableLost := rfl
@[simp] theorem reportViolation_drawCount (s : State) : (reportViolation s).drawCount = s.drawCount := rfl
@[simp] theorem reportViolation_sched (s : State) : (reportViolation s).sched = s.sched := rfl
@[simp] theorem reportViolation_agenda (s : State) : (reportViolation s).agenda = s.agenda := rfl
@[simp] theorem reportViolation_busData (s : State) : (reportViolation s).busData = s.busData := rfl
@[simp] theorem reportViolation_lastCreate (s : State) : (reportViolation s).lastCreate = s.lastCreate := rfl
@[simp] theorem reportViolation_lastFault (s : State) : (reportViolation s).lastFault = s.lastFault := rfl
@[simp] theorem reportViolation_lastRefusal (s : State) : (reportViolation s).lastRefusal = s.lastRefusal := rfl
@[simp] theorem reportViolation_eng_contractViolation (s : State) : (reportViolation s).eng.contractViolation = true := rfl
@[simp] theorem reportViolation_eng_created (s : State) : (reportViolation s).eng.created = s.eng.created := rfl
@[simp] theorem reportViolation_eng_started (s : State) : (reportViolation s).eng.started = s.eng.started := rfl
@[simp] theorem reportViolation_eng_untagVid (s : State) : (reportViolation s).eng.untagVid = s.eng.untagVid := rfl
@[simp] theorem reportViolation_eng_agingMode (s : State) : (reportViolation s).eng.agingMode = s.eng.agingMode := rfl
@[simp] theorem reportViolation_eng_swArmed (s : State) : (reportViolation s).eng.swArmed = s.eng.swArmed := rfl
@[simp] theorem reportViolation_eng_swPending (s : State) : (reportViolation s).eng.swPending = s.eng.swPending := rfl
@[simp] theorem reportViolation_eng_ctrl (s : State) : (reportViolation s).eng.ctrl = s.eng.ctrl := rfl

@[simp] theorem setUntagBit_regs (v : Vid) (b : Bool) (s : State) : (setUntagBit v b s).regs = s.regs := rfl
@[simp] theorem setUntagBit_table (v : Vid) (b : Bool) (s : State) : (setUntagBit v b s).table = s.table := rfl
@[simp] theorem setUntagBit_tblBuf (v : Vid) (b : Bool) (s : State) : (setUntagBit v b s).tblBuf = s.tblBuf := rfl
@[simp] theorem setUntagBit_ageCnt (v : Vid) (b : Bool) (s : State) : (setUntagBit v b s).ageCnt = s.ageCnt := rfl
@[simp] theorem setUntagBit_a (v : Vid) (b : Bool) (s : State) : (setUntagBit v b s).a = s.a := rfl
@[simp] theorem setUntagBit_res (v : Vid) (b : Bool) (s : State) : (setUntagBit v b s).res = s.res := rfl
@[simp] theorem setUntagBit_faulted (v : Vid) (b : Bool) (s : State) : (setUntagBit v b s).faulted = s.faulted := rfl
@[simp] theorem setUntagBit_refused (v : Vid) (b : Bool) (s : State) : (setUntagBit v b s).refused = s.refused := rfl
@[simp] theorem setUntagBit_chip (v : Vid) (b : Bool) (s : State) : (setUntagBit v b s).chip = s.chip := rfl
@[simp] theorem setUntagBit_cfg (v : Vid) (b : Bool) (s : State) : (setUntagBit v b s).cfg = s.cfg := rfl
@[simp] theorem setUntagBit_tableLost (v : Vid) (b : Bool) (s : State) : (setUntagBit v b s).tableLost = s.tableLost := rfl
@[simp] theorem setUntagBit_drawCount (v : Vid) (b : Bool) (s : State) : (setUntagBit v b s).drawCount = s.drawCount := rfl
@[simp] theorem setUntagBit_sched (v : Vid) (b : Bool) (s : State) : (setUntagBit v b s).sched = s.sched := rfl
@[simp] theorem setUntagBit_agenda (v : Vid) (b : Bool) (s : State) : (setUntagBit v b s).agenda = s.agenda := rfl
@[simp] theorem setUntagBit_busData (v : Vid) (b : Bool) (s : State) : (setUntagBit v b s).busData = s.busData := rfl
@[simp] theorem setUntagBit_lastCreate (v : Vid) (b : Bool) (s : State) : (setUntagBit v b s).lastCreate = s.lastCreate := rfl
@[simp] theorem setUntagBit_lastFault (v : Vid) (b : Bool) (s : State) : (setUntagBit v b s).lastFault = s.lastFault := rfl
@[simp] theorem setUntagBit_lastRefusal (v : Vid) (b : Bool) (s : State) : (setUntagBit v b s).lastRefusal = s.lastRefusal := rfl
@[simp] theorem setUntagBit_eng_created (v : Vid) (b : Bool) (s : State) : (setUntagBit v b s).eng.created = s.eng.created := rfl
@[simp] theorem setUntagBit_eng_started (v : Vid) (b : Bool) (s : State) : (setUntagBit v b s).eng.started = s.eng.started := rfl
@[simp] theorem setUntagBit_eng_agingMode (v : Vid) (b : Bool) (s : State) : (setUntagBit v b s).eng.agingMode = s.eng.agingMode := rfl
@[simp] theorem setUntagBit_eng_swArmed (v : Vid) (b : Bool) (s : State) : (setUntagBit v b s).eng.swArmed = s.eng.swArmed := rfl
@[simp] theorem setUntagBit_eng_swPending (v : Vid) (b : Bool) (s : State) : (setUntagBit v b s).eng.swPending = s.eng.swPending := rfl
@[simp] theorem setUntagBit_eng_ctrl (v : Vid) (b : Bool) (s : State) : (setUntagBit v b s).eng.ctrl = s.eng.ctrl := rfl
@[simp] theorem setUntagBit_eng_contractViolation (v : Vid) (b : Bool) (s : State) : (setUntagBit v b s).eng.contractViolation = s.eng.contractViolation := rfl

@[simp] theorem redrawTable_regs (n : Nat) (s : State) : (redrawTable n s).regs = s.regs := rfl
@[simp] theorem redrawTable_tblBuf (n : Nat) (s : State) : (redrawTable n s).tblBuf = s.tblBuf := rfl
@[simp] theorem redrawTable_ageCnt (n : Nat) (s : State) : (redrawTable n s).ageCnt = s.ageCnt := rfl
@[simp] theorem redrawTable_eng (n : Nat) (s : State) : (redrawTable n s).eng = s.eng := rfl
@[simp] theorem redrawTable_a (n : Nat) (s : State) : (redrawTable n s).a = s.a := rfl
@[simp] theorem redrawTable_res (n : Nat) (s : State) : (redrawTable n s).res = s.res := rfl
@[simp] theorem redrawTable_faulted (n : Nat) (s : State) : (redrawTable n s).faulted = s.faulted := rfl
@[simp] theorem redrawTable_refused (n : Nat) (s : State) : (redrawTable n s).refused = s.refused := rfl
@[simp] theorem redrawTable_chip (n : Nat) (s : State) : (redrawTable n s).chip = s.chip := rfl
@[simp] theorem redrawTable_cfg (n : Nat) (s : State) : (redrawTable n s).cfg = s.cfg := rfl
@[simp] theorem redrawTable_sched (n : Nat) (s : State) : (redrawTable n s).sched = s.sched := rfl
@[simp] theorem redrawTable_agenda (n : Nat) (s : State) : (redrawTable n s).agenda = s.agenda := rfl
@[simp] theorem redrawTable_busData (n : Nat) (s : State) : (redrawTable n s).busData = s.busData := rfl
@[simp] theorem redrawTable_lastCreate (n : Nat) (s : State) : (redrawTable n s).lastCreate = s.lastCreate := rfl
@[simp] theorem redrawTable_lastFault (n : Nat) (s : State) : (redrawTable n s).lastFault = s.lastFault := rfl
@[simp] theorem redrawTable_lastRefusal (n : Nat) (s : State) : (redrawTable n s).lastRefusal = s.lastRefusal := rfl
@[simp] theorem redrawTable_tableLost (n : Nat) (s : State) : (redrawTable n s).tableLost = false := rfl
@[simp] theorem redrawTable_drawCount (n : Nat) (s : State) : (redrawTable n s).drawCount = s.drawCount + 3 * n := rfl

@[simp] theorem redrawRegs_table (s : State) : (redrawRegs s).table = s.table := rfl
@[simp] theorem redrawRegs_eng (s : State) : (redrawRegs s).eng = s.eng := rfl
@[simp] theorem redrawRegs_a (s : State) : (redrawRegs s).a = s.a := rfl
@[simp] theorem redrawRegs_res (s : State) : (redrawRegs s).res = s.res := rfl
@[simp] theorem redrawRegs_faulted (s : State) : (redrawRegs s).faulted = s.faulted := rfl
@[simp] theorem redrawRegs_refused (s : State) : (redrawRegs s).refused = s.refused := rfl
@[simp] theorem redrawRegs_chip (s : State) : (redrawRegs s).chip = s.chip := rfl
@[simp] theorem redrawRegs_cfg (s : State) : (redrawRegs s).cfg = s.cfg := rfl
@[simp] theorem redrawRegs_tableLost (s : State) : (redrawRegs s).tableLost = s.tableLost := rfl
@[simp] theorem redrawRegs_sched (s : State) : (redrawRegs s).sched = s.sched := rfl
@[simp] theorem redrawRegs_agenda (s : State) : (redrawRegs s).agenda = s.agenda := rfl
@[simp] theorem redrawRegs_busData (s : State) : (redrawRegs s).busData = s.busData := rfl
@[simp] theorem redrawRegs_lastCreate (s : State) : (redrawRegs s).lastCreate = s.lastCreate := rfl
@[simp] theorem redrawRegs_lastFault (s : State) : (redrawRegs s).lastFault = s.lastFault := rfl
@[simp] theorem redrawRegs_lastRefusal (s : State) : (redrawRegs s).lastRefusal = s.lastRefusal := rfl
@[simp] theorem redrawRegs_drawCount (s : State) : (redrawRegs s).drawCount = s.drawCount + 41 := rfl

@[simp] theorem writeArg_regs (w : ArgWrite) (s : State) : (writeArg w s).regs = s.regs := rfl
@[simp] theorem writeArg_table (w : ArgWrite) (s : State) : (writeArg w s).table = s.table := rfl
@[simp] theorem writeArg_tblBuf (w : ArgWrite) (s : State) : (writeArg w s).tblBuf = s.tblBuf := rfl
@[simp] theorem writeArg_ageCnt (w : ArgWrite) (s : State) : (writeArg w s).ageCnt = s.ageCnt := rfl
@[simp] theorem writeArg_eng (w : ArgWrite) (s : State) : (writeArg w s).eng = s.eng := rfl
@[simp] theorem writeArg_res (w : ArgWrite) (s : State) : (writeArg w s).res = s.res := rfl
@[simp] theorem writeArg_faulted (w : ArgWrite) (s : State) : (writeArg w s).faulted = s.faulted := rfl
@[simp] theorem writeArg_refused (w : ArgWrite) (s : State) : (writeArg w s).refused = s.refused := rfl
@[simp] theorem writeArg_chip (w : ArgWrite) (s : State) : (writeArg w s).chip = s.chip := rfl
@[simp] theorem writeArg_cfg (w : ArgWrite) (s : State) : (writeArg w s).cfg = s.cfg := rfl
@[simp] theorem writeArg_tableLost (w : ArgWrite) (s : State) : (writeArg w s).tableLost = s.tableLost := rfl
@[simp] theorem writeArg_drawCount (w : ArgWrite) (s : State) : (writeArg w s).drawCount = s.drawCount := rfl
@[simp] theorem writeArg_sched (w : ArgWrite) (s : State) : (writeArg w s).sched = s.sched := rfl
@[simp] theorem writeArg_agenda (w : ArgWrite) (s : State) : (writeArg w s).agenda = s.agenda := rfl
@[simp] theorem writeArg_busData (w : ArgWrite) (s : State) : (writeArg w s).busData = s.busData := rfl
@[simp] theorem writeArg_lastCreate (w : ArgWrite) (s : State) : (writeArg w s).lastCreate = s.lastCreate := rfl
@[simp] theorem writeArg_lastFault (w : ArgWrite) (s : State) : (writeArg w s).lastFault = s.lastFault := rfl
@[simp] theorem writeArg_lastRefusal (w : ArgWrite) (s : State) : (writeArg w s).lastRefusal = s.lastRefusal := rfl

@[simp] theorem install_regs (c : Cfg) (s : State) : (install c s).regs = s.regs := rfl
@[simp] theorem install_table (c : Cfg) (s : State) : (install c s).table = s.table := rfl
@[simp] theorem install_tblBuf (c : Cfg) (s : State) : (install c s).tblBuf = s.tblBuf := rfl
@[simp] theorem install_ageCnt (c : Cfg) (s : State) : (install c s).ageCnt = s.ageCnt := rfl
@[simp] theorem install_a (c : Cfg) (s : State) : (install c s).a = s.a := rfl
@[simp] theorem install_res (c : Cfg) (s : State) : (install c s).res = s.res := rfl
@[simp] theorem install_faulted (c : Cfg) (s : State) : (install c s).faulted = s.faulted := rfl
@[simp] theorem install_refused (c : Cfg) (s : State) : (install c s).refused = s.refused := rfl
@[simp] theorem install_chip (c : Cfg) (s : State) : (install c s).chip = s.chip := rfl
@[simp] theorem install_tableLost (c : Cfg) (s : State) : (install c s).tableLost = s.tableLost := rfl
@[simp] theorem install_drawCount (c : Cfg) (s : State) : (install c s).drawCount = s.drawCount := rfl
@[simp] theorem install_sched (c : Cfg) (s : State) : (install c s).sched = s.sched := rfl
@[simp] theorem install_agenda (c : Cfg) (s : State) : (install c s).agenda = s.agenda := rfl
@[simp] theorem install_busData (c : Cfg) (s : State) : (install c s).busData = s.busData := rfl
@[simp] theorem install_lastFault (c : Cfg) (s : State) : (install c s).lastFault = s.lastFault := rfl
@[simp] theorem install_lastRefusal (c : Cfg) (s : State) : (install c s).lastRefusal = s.lastRefusal := rfl
@[simp] theorem install_cfg (c : Cfg) (s : State) : (install c s).cfg = c := rfl
@[simp] theorem install_lastCreate (c : Cfg) (s : State) : (install c s).lastCreate = some .created := rfl
@[simp] theorem install_eng_created (c : Cfg) (s : State) : (install c s).eng.created = true := rfl
@[simp] theorem install_eng_contractViolation (c : Cfg) (s : State) : (install c s).eng.contractViolation = s.eng.contractViolation := rfl

end Sys2Proof.Machine
end

