-- ==== Sys2Proof/Laws/Codec.lean ====
section
/-! SUPPORT. The codec bit by bit: which bit of the image each bit of a field is (R150, R151). -/

namespace Sys2Proof.Machine

theorem getLsbD_maskImage (w i : Nat) : (maskImage w).getLsbD i = (decide (i < 96) && decide (i < w)) := by
  simp [maskImage, BitVec.getLsbD_ofNat, Nat.testBit_two_pow_sub_one]

theorem getLsbD_maskWord (w i : Nat) : (maskWord w).getLsbD i = (decide (i < 32) && decide (i < w)) := by
  simp [maskWord, BitVec.getLsbD_ofNat, Nat.testBit_two_pow_sub_one]

/-- Bit `i` of a field is bit `s + i` of the image. -/
theorem getLsbD_getField (e : Image) (s w i : Nat) :
    (getField e s w).getLsbD i = (decide (i < 32) && decide (i < w) && e.getLsbD (s + i)) := by
  simp only [getField, BitVec.getLsbD_setWidth, BitVec.getLsbD_and, BitVec.getLsbD_ushiftRight, getLsbD_maskImage]
  by_cases h32 : i < 32 <;> by_cases hw : i < w <;> simp [h32, hw, show i < 32 → i < 96 by omega]

/-- Bit `b` of an image after a SetField. -/
theorem getLsbD_setField (e : Image) (s w : Nat) (v : Word) (b : Nat) :
    (setField e s w v).getLsbD b =
      if s ≤ b ∧ b < s + w ∧ b < 96 then v.getLsbD (b - s) else e.getLsbD b := by
  simp only [setField, BitVec.getLsbD_or, BitVec.getLsbD_and, BitVec.getLsbD_not, BitVec.getLsbD_shiftLeft,
    BitVec.getLsbD_setWidth, getLsbD_maskImage]
  by_cases h96 : b < 96
  · by_cases hs : b < s
    · simp [h96, hs, show ¬ s ≤ b by omega]
    · by_cases hw : b < s + w
      · simp [h96, hs, show s ≤ b by omega, hw, show b - s < 96 by omega, show b - s < w by omega]
      · simp [h96, hs, hw, show ¬ b - s < w by omega]
  · simp [h96, BitVec.getLsbD_of_ge e b (by omega)]

end Sys2Proof.Machine
end

