-- ==== Sys2Proof/Laws/Table.lean ====
section
/-! SUPPORT. The laws of the sparse table (log 1): a read after a write, and that every operation keeps the canonical
form and the index bound. -/

namespace Sys2Proof.Machine

@[simp] theorem Table.entry_nil (i : Nat) : Table.entry [] i = 0 := rfl

theorem Table.entry_cons (k : Nat) (v : Image) (t : Table) (i : Nat) :
    Table.entry ((k, v) :: t) i = if i = k then v else Table.entry t i := rfl

theorem Table.entry_put (t : Table) (i j : Nat) (v : Image) :
    Table.entry (Table.put t i v) j = if j = i then v else Table.entry t j := by
  induction t with
  | nil => simp [Table.put, Table.entry_cons]
  | cons c t ih =>
    obtain ⟨k, w⟩ := c
    unfold Table.put
    split
    · simp [Table.entry_cons]
    · split
      · subst_vars
        simp only [Table.entry_cons]
        split <;> simp_all
      · simp only [Table.entry_cons, ih]
        split <;> split <;> simp_all

theorem Table.entry_unlist (t : Table) (i j : Nat) :
    Table.entry (Table.unlist t i) j = if j = i then 0 else Table.entry t j := by
  unfold Table.unlist
  induction t with
  | nil => simp
  | cons c t ih =>
    obtain ⟨k, w⟩ := c
    simp only [List.filter_cons]
    by_cases hk : k = i
    · subst hk
      simp only [beq_self_eq_true, Bool.not_true, Bool.false_eq_true, if_false, ih, Table.entry_cons]
      split <;> simp_all
    · simp only [hk, not_false_eq_true, Bool.not_eq_true', beq_eq_false_iff_ne, ne_eq, if_true, Table.entry_cons, ih]
      split <;> simp_all

/-- A read after a write: the written index reads the written image, every other index reads as before. -/
@[simp] theorem Table.entry_store (t : Table) (i j : Nat) (v : Image) :
    Table.entry (Table.store t i v) j = if j = i then v else Table.entry t j := by
  unfold Table.store
  split
  · rename_i h
    subst h
    exact Table.entry_unlist t i j
  · exact Table.entry_put t i j v

theorem Table.entry_store_same (t : Table) (i : Nat) (v : Image) : Table.entry (Table.store t i v) i = v := by simp

theorem Table.entry_store_other (t : Table) {i j : Nat} (v : Image) (h : j ≠ i) :
    Table.entry (Table.store t i v) j = Table.entry t j := by simp [h]

/-- Listed above `k`: every listed index is greater. -/
theorem Table.all_put {p : Nat → Bool} (t : Table) (i : Nat) (v : Image) :
    (Table.put t i v).all (fun c => p c.1) = (t.all (fun c => p c.1) && p i) := by
  induction t with
  | nil => simp [Table.put]
  | cons c t ih =>
    obtain ⟨k, w⟩ := c
    unfold Table.put
    split
    · simp [Bool.and_comm]
    · split
      · subst_vars
        simp [Bool.and_comm]
      · simp only [List.all_cons, ih, Bool.and_assoc]

theorem Table.all_unlist {p : Nat → Bool} (t : Table) (i : Nat) (h : t.all (fun c => p c.1) = true) :
    (Table.unlist t i).all (fun c => p c.1) = true := by
  simp only [Table.unlist, List.all_eq_true, List.mem_filter] at *
  exact fun c hc => h c hc.1

theorem Table.wf_put (t : Table) (i : Nat) (v : Image) (hv : v ≠ 0) (h : Table.wf t = true) :
    Table.wf (Table.put t i v) = true := by
  induction t with
  | nil => simpa [Table.put, Table.wf, unlistedImage] using hv
  | cons c t ih =>
    obtain ⟨k, w⟩ := c
    simp only [Table.wf, Bool.and_eq_true] at h
    obtain ⟨⟨hw, hall⟩, ht⟩ := h
    unfold Table.put
    split
    · rename_i hik
      simp only [Table.wf, Bool.and_eq_true, List.all_cons, decide_eq_true_eq]
      refine ⟨⟨by simpa [unlistedImage] using hv, hik, ?_⟩, ⟨hw, hall⟩, ht⟩
      rw [List.all_eq_true] at *
      intro c hc
      have := hall c hc
      simp only [decide_eq_true_eq] at *
      omega
    · split
      · subst_vars
        simp only [Table.wf, Bool.and_eq_true]
        exact ⟨⟨by simpa [unlistedImage] using hv, hall⟩, ht⟩
      · simp only [Table.wf, Bool.and_eq_true]
        refine ⟨⟨hw, ?_⟩, ih ht⟩
        rw [Table.all_put (p := fun x => decide (k < x))]
        simp only [hall, Bool.true_and, decide_eq_true_eq]
        omega

theorem Table.wf_unlist (t : Table) (i : Nat) (h : Table.wf t = true) : Table.wf (Table.unlist t i) = true := by
  induction t with
  | nil => rfl
  | cons c t ih =>
    obtain ⟨k, w⟩ := c
    simp only [Table.wf, Bool.and_eq_true] at h
    obtain ⟨⟨hw, hall⟩, ht⟩ := h
    unfold Table.unlist
    rw [List.filter_cons]
    split
    · simp only [Table.wf, Bool.and_eq_true]
      exact ⟨⟨hw, Table.all_unlist (p := fun x => decide (k < x)) t i hall⟩, ih ht⟩
    · exact ih ht

/-- Every write keeps the canonical form. -/
theorem Table.wf_store (t : Table) (i : Nat) (v : Image) (h : Table.wf t = true) :
    Table.wf (Table.store t i v) = true := by
  unfold Table.store
  split
  · exact Table.wf_unlist t i h
  · rename_i hv
    exact Table.wf_put t i v hv h

/-- A write below N keeps every listed index below N. -/
theorem Table.below_store (n : Nat) (t : Table) (i : Nat) (v : Image) (hi : i < n) (h : Table.below n t = true) :
    Table.below n (Table.store t i v) = true := by
  unfold Table.store Table.below at *
  split
  · exact Table.all_unlist (p := fun x => decide (x < n)) t i h
  · rw [Table.all_put (p := fun x => decide (x < n))]
    simp [h, hi]

theorem Table.wf_nil : Table.wf [] = true := rfl

theorem Table.below_nil (n : Nat) : Table.below n [] = true := rfl

/-- An index at or above N reads as the all-zero image. -/
theorem Table.entry_of_below (n : Nat) (t : Table) (i : Nat) (h : Table.below n t = true) (hi : n ≤ i) :
    Table.entry t i = 0 := by
  induction t with
  | nil => rfl
  | cons c t ih =>
    obtain ⟨k, v⟩ := c
    simp only [Table.below, List.all_cons, Bool.and_eq_true, decide_eq_true_eq] at h ih
    rw [Table.entry_cons, if_neg (by omega)]
    exact ih h.2

/-- The reset memory has the canonical form. -/
theorem reset_table_wf : Table.wf State.reset.table = true := rfl

end Sys2Proof.Machine
end

