-- ==== Sys2Proof/Laws/Ops.lean ====
section
/-! SUPPORT. What each shared operation can do: free values, register reads and writes, the aging pass, agent steps,
micro-steps and loops. -/

namespace Sys2Proof.Machine

/-! ### The aging pass -/

/-- An aging pass changes the table and the count of free values, and nothing else. -/
theorem agingPassFrom_frame (n i : Nat) (s : State) :
    ∃ t k, agingPassFrom n i s = { s with table := t, drawCount := k } := by
  induction n generalizing i s with
  | zero => exact ⟨s.table, s.drawCount, rfl⟩
  | succ n ih =>
    unfold agingPassFrom
    obtain ⟨t, k, h⟩ := ih (i + 1) { s with
      table := Table.store s.table i (ageEntry s.cfg.agingPass (Table.entry s.table i) (Config.draw s.drawCount))
      drawCount := s.drawCount + 1 }
    exact ⟨t, k, h⟩

theorem agingPass_frame (s : State) : ∃ t k, agingPass s = { s with table := t, drawCount := k } :=
  agingPassFrom_frame s.cfg.n 0 s

/-- The entry an aging pass leaves at each index: of the indices it visits, what `ageEntry` makes of the entry for some
free value; every other entry is unchanged. -/
theorem agingPassFrom_entry (n i : Nat) (s : State) (j : Nat) :
    ∃ d, Table.entry (agingPassFrom n i s).table j =
      if i ≤ j ∧ j < i + n then ageEntry s.cfg.agingPass (Table.entry s.table j) d else Table.entry s.table j := by
  induction n generalizing i s with
  | zero => exact ⟨0, by rw [if_neg (by omega)]; rfl⟩
  | succ n ih =>
    unfold agingPassFrom
    set s1 : State := { s with
      table := Table.store s.table i (ageEntry s.cfg.agingPass (Table.entry s.table i) (Config.draw s.drawCount))
      drawCount := s.drawCount + 1 } with hs1
    obtain ⟨d, hd⟩ := ih (i + 1) s1
    by_cases hj : j = i
    · subst hj
      refine ⟨Config.draw s.drawCount, ?_⟩
      rw [hd, if_neg (by omega), if_pos (by omega), hs1]
      simp
    · refine ⟨d, ?_⟩
      rw [hd]
      have he : Table.entry s1.table j = Table.entry s.table j := by simp [hs1, hj]
      have hc : s1.cfg = s.cfg := rfl
      rw [he, hc]
      by_cases h : i + 1 ≤ j ∧ j < i + 1 + n
      · rw [if_pos h, if_pos (by omega)]
      · rw [if_neg h, if_neg (by omega)]

theorem agingPass_entry (s : State) (j : Nat) :
    ∃ d, Table.entry (agingPass s).table j =
      if j < s.cfg.n then ageEntry s.cfg.agingPass (Table.entry s.table j) d else Table.entry s.table j := by
  obtain ⟨d, hd⟩ := agingPassFrom_entry s.cfg.n 0 s j
  exact ⟨d, by simpa [agingPass] using hd⟩

/-- An aging pass keeps the canonical form. -/
theorem agingPassFrom_wf (n i : Nat) (s : State) (h : Table.wf s.table = true) :
    Table.wf (agingPassFrom n i s).table = true := by
  induction n generalizing i s with
  | zero => exact h
  | succ n ih => exact ih (i + 1) _ (Table.wf_store _ _ _ h)

theorem agingPassFrom_below (m n i : Nat) (s : State) (hm : i + n ≤ m) (h : Table.below m s.table = true) :
    Table.below m (agingPassFrom n i s).table = true := by
  induction n generalizing i s with
  | zero => exact h
  | succ n ih => exact ih (i + 1) _ (by omega) (Table.below_store _ _ _ _ (by omega) h)

theorem agingPass_wf (s : State) (h : Table.wf s.table = true) : Table.wf (agingPass s).table = true :=
  agingPassFrom_wf _ _ s h

theorem agingPass_below (s : State) (h : Table.below s.cfg.n s.table = true) :
    Table.below s.cfg.n (agingPass s).table = true :=
  agingPassFrom_below _ _ _ s (by omega) h

/-! ### Register reads and writes -/

/-- A read of a register changes only the count of free values, and answers the named fields (R65, R120). -/
theorem readReg_frame (r : Reg) (s : State) :
    ∃ k, (readReg r s).2 = { s with drawCount := k } := by
  unfold readReg
  dsimp only
  split
  · exact ⟨s.drawCount, rfl⟩
  · exact ⟨s.drawCount + 1, rfl⟩

theorem readReg_mask (r : Reg) (s : State) : (readReg r s).1.mask = namedMask s.cfg r := by
  unfold readReg
  dsimp only
  split <;> rfl

/-- The named part of a read is the named fields of the register. -/
theorem readReg_named (r : Reg) (s : State) :
    (readReg r s).1.named &&& namedMask s.cfg r = namedValue s r &&& namedMask s.cfg r := by
  unfold readReg
  dsimp only
  split
  · rfl
  · simp only [BitVec.and_assoc, BitVec.and_self]

/-- Taking bits of a value read: the word's bits, whatever they are. -/
theorem readUnder_eq (v : ReadValue) (k : Word) : readUnder v k = readWord v &&& k := by
  unfold readUnder
  split
  · rename_i h
    unfold readWord
    split
    · rfl
    · ext i hi
      have h' := congrArg (fun x => x.getLsbD i) h
      simp only [BitVec.getLsbD_and, BitVec.getLsbD_not, hi, decide_true, Bool.true_and] at h'
      simp only [← BitVec.getLsbD_eq_getElem, BitVec.getLsbD_and, BitVec.getLsbD_or, BitVec.getLsbD_not, hi, decide_true, Bool.true_and]
      cases hk : k.getLsbD i <;> cases hm : v.mask.getLsbD i <;> simp_all
  · rfl

theorem and_low24 (v : Word) : (v &&& (0x00FFFFFF : Word)).setWidth 24 = v.setWidth 24 := by
  ext i hi
  have h : (0x00FFFFFF : Word).getLsbD i = true := by interval_cases i <;> rfl
  simp only [← BitVec.getLsbD_eq_getElem, BitVec.getLsbD_setWidth, BitVec.getLsbD_and, h, Bool.and_true]

theorem and_all32 (v : Word) : v &&& (0xFFFFFFFF : Word) = v := by
  rw [show (0xFFFFFFFF : Word) = BitVec.allOnes 32 by decide, BitVec.and_allOnes]

theorem writeControl_named (v : Word) (s : State) : writeControl (v &&& (0xE00001FF : Word)) s = writeControl v s := by
  have hb : ∀ b, (0xE00001FF : Word).getLsbD b = true → (v &&& (0xE00001FF : Word)).getLsbD b = v.getLsbD b := by
    intro b hb
    rw [BitVec.getLsbD_and, hb, Bool.and_true]
  have hrw : v &&& (0xE00001FF : Word) &&& controlRw = v &&& controlRw := by
    rw [BitVec.and_assoc, show (0xE00001FF : Word) &&& controlRw = controlRw by decide]
  unfold writeControl
  rw [hrw, hb clearBit (by decide), hb ageoutBit (by decide)]

/-- Every register write but TABLE_CONTROL's depends only on the named bits of the value (R48). -/
theorem writeReg_named (r : Reg) (v : Word) (s : State) (h : r ≠ .tableControl) :
    writeReg r (v &&& namedMask s.cfg r) s = writeReg r v s := by
  cases r with
  | tableControl => exact absurd rfl h
  | idver => simp only [writeReg]
  | status => simp only [writeReg]
  | control => simp only [writeReg, namedMask]; exact writeControl_named v s
  | agingTimer => simp only [writeReg, namedMask, and_low24]
  | tableWord2 => simp only [writeReg, namedMask, and_all32]
  | tableWord1 => simp only [writeReg, namedMask, and_all32]
  | tableWord0 => simp only [writeReg, namedMask, and_all32]
  | prescale => simp only [writeReg, BitVec.and_assoc, BitVec.and_self]
  | unknownVlan => simp only [writeReg, BitVec.and_assoc, BitVec.and_self]
  | portctl n => simp only [writeReg, BitVec.and_assoc, BitVec.and_self]
  | unkMember => simp only [writeReg, BitVec.and_assoc, BitVec.and_self]
  | unkUnreg => simp only [writeReg, BitVec.and_assoc, BitVec.and_self]
  | unkReg => simp only [writeReg, BitVec.and_assoc, BitVec.and_self]
  | unkUntag => simp only [writeReg, BitVec.and_assoc, BitVec.and_self]
  | maskMux k => simp only [writeReg, BitVec.and_assoc, BitVec.and_self]
  | threadDef => simp only [writeReg, BitVec.and_assoc, BitVec.and_self]

/-- A write to CONTROL changes CONTROL, the table and the count of free values, and nothing else. -/
theorem writeControl_frame (v : Word) (s : State) :
    ∃ t k, writeControl v s =
      { s with regs := { s.regs with control := v &&& controlRw }, table := t, drawCount := k } := by
  unfold writeControl
  dsimp only [setRegs]
  split <;> split
  · obtain ⟨t, k, h⟩ := agingPass_frame { s with regs := { s.regs with control := v &&& controlRw }, table := [] }
    exact ⟨t, k, h⟩
  · obtain ⟨t, k, h⟩ := agingPass_frame { s with regs := { s.regs with control := v &&& controlRw } }
    exact ⟨t, k, h⟩
  · exact ⟨[], s.drawCount, rfl⟩
  · exact ⟨s.table, s.drawCount, rfl⟩

theorem writeControl_wf (v : Word) (s : State) (h : Table.wf s.table = true) :
    Table.wf (writeControl v s).table = true := by
  unfold writeControl
  dsimp only [setRegs]
  split <;> split
  · exact agingPass_wf _ Table.wf_nil
  · exact agingPass_wf _ h
  · exact Table.wf_nil
  · exact h

theorem writeControl_below (v : Word) (s : State) (h : Table.below s.cfg.n s.table = true) :
    Table.below s.cfg.n (writeControl v s).table = true := by
  unfold writeControl
  dsimp only [setRegs]
  split <;> split
  · exact agingPass_below _ (Table.below_nil _)
  · exact agingPass_below _ h
  · exact Table.below_nil _
  · exact h

/-! ### Agent steps and interleaving -/

/-- What the other agents can change: CONTROL's stored fields, the table, age_cnt, the pending tick and the count of free
values, and nothing else. -/
theorem agentStep_frame (x : AgentStep) (s : State) :
    ∃ c t g p k, agentStep x s =
      { s with regs := { s.regs with control := c }, table := t, ageCnt := g,
               eng := { s.eng with swPending := p }, drawCount := k } := by
  cases x with
  | tickRead =>
    simp only [agentStep, tickRead]
    split
    · obtain ⟨k, hk⟩ := readReg_frame .control s
      exact ⟨s.regs.control, s.table, s.ageCnt, some (readReg .control s).1, k, by simp only [hk]⟩
    · exact ⟨s.regs.control, s.table, s.ageCnt, s.eng.swPending, s.drawCount, rfl⟩
  | tickWrite =>
    simp only [agentStep, tickWrite]
    split
    · split
      · exact ⟨s.regs.control, s.table, s.ageCnt, s.eng.swPending, s.drawCount, rfl⟩
      · rename_i r hr
        obtain ⟨t, k, h⟩ := writeControl_frame (readUnder r (namedMask s.cfg .control) ||| bitWord ageoutBit) s
        exact ⟨(readUnder r (namedMask s.cfg .control) ||| bitWord ageoutBit) &&& controlRw, t, s.ageCnt, none, k,
          by simp only [h]⟩
    · exact ⟨s.regs.control, s.table, s.ageCnt, s.eng.swPending, s.drawCount, rfl⟩
  | hwTick =>
    simp only [agentStep, hwTick]
    split
    · split
      · exact ⟨s.regs.control, s.table, s.ageCnt - 1, s.eng.swPending, s.drawCount, rfl⟩
      · obtain ⟨t, k, h⟩ := agingPass_frame s
        exact ⟨s.regs.control, t, s.regs.period, s.eng.swPending, k, by simp only [h]⟩
    · exact ⟨s.regs.control, s.table, s.ageCnt, s.eng.swPending, s.drawCount, rfl⟩
  | fwdLearn i u =>
    simp only [agentStep, fwdLearn, setEntry]
    split
    · exact ⟨s.regs.control, _, s.ageCnt, s.eng.swPending, s.drawCount, rfl⟩
    · exact ⟨s.regs.control, s.table, s.ageCnt, s.eng.swPending, s.drawCount, rfl⟩
  | fwdTouch i =>
    simp only [agentStep, fwdTouch, setEntry]
    split
    · exact ⟨s.regs.control, _, s.ageCnt, s.eng.swPending, s.drawCount, rfl⟩
    · exact ⟨s.regs.control, s.table, s.ageCnt, s.eng.swPending, s.drawCount, rfl⟩
  | fwdMove i p =>
    simp only [agentStep, fwdMove, setEntry]
    split
    · exact ⟨s.regs.control, _, s.ageCnt, s.eng.swPending, s.drawCount, rfl⟩
    · exact ⟨s.regs.control, s.table, s.ageCnt, s.eng.swPending, s.drawCount, rfl⟩

theorem agentSteps_frame (xs : List AgentStep) (s : State) :
    ∃ c t g p k, agentSteps xs s =
      { s with regs := { s.regs with control := c }, table := t, ageCnt := g,
               eng := { s.eng with swPending := p }, drawCount := k } := by
  induction xs generalizing s with
  | nil => exact ⟨s.regs.control, s.table, s.ageCnt, s.eng.swPending, s.drawCount, rfl⟩
  | cons x xs ih =>
    obtain ⟨c, t, g, p, k, h⟩ := agentStep_frame x s
    obtain ⟨c', t', g', p', k', h'⟩ := ih (agentStep x s)
    exact ⟨c', t', g', p', k', by rw [agentSteps, h', h]⟩

/-- What happens before a micro-step: agent steps, which leave everything but what `agentStep_frame` names, and the
schedule moves on. -/
theorem interleave_frame (s : State) :
    ∃ c t g p k q, interleave s =
      { s with regs := { s.regs with control := c }, table := t, ageCnt := g,
               eng := { s.eng with swPending := p }, drawCount := k, sched := q } := by
  unfold interleave
  split
  · exact ⟨s.regs.control, s.table, s.ageCnt, s.eng.swPending, s.drawCount, s.sched, rfl⟩
  · rename_i now later _
    obtain ⟨c, t, g, p, k, h⟩ := agentSteps_frame now { s with sched := later }
    exact ⟨c, t, g, p, k, later, h⟩

/-- In the schedule without other agents nothing happens before a micro-step. -/
theorem interleave_alone (s : State) (h : s.sched = []) : interleave s = s := by
  unfold interleave
  rw [h]

/-! ### Micro-steps alone -/

theorem tblRead_alone (i : Nat) (s : State) (h : s.sched = []) :
    tblRead i s = (Table.entry s.table i, { s with tblBuf := Table.entry s.table i }) := by
  simp only [tblRead, interleave_alone s h, selectEntry]

theorem tblWrite_alone (i : Nat) (e : Image) (s : State) (h : s.sched = []) : tblWrite i e s = commitEntry i e s := by
  simp only [tblWrite, interleave_alone s h]

theorem memRead_alone (r : Reg) (s : State) (h : s.sched = []) : memRead r s = readReg r s := by
  simp only [memRead, interleave_alone s h]

theorem memWrite_alone (r : Reg) (v : Word) (s : State) (h : s.sched = []) : memWrite r v s = writeReg r v s := by
  simp only [memWrite, interleave_alone s h]

/-! ### Reaching a command body -/

theorem whenCreated_live (s : State) (body : Host.Outcome State Fault Refusal) (h : Live s) :
    whenCreated s body = body := by
  simp [whenCreated, h.1, h.2]

@[simp] theorem withArg_some {α : Type} (v : α) (s : State) (body : α → Host.Outcome State Fault Refusal) :
    withArg (some v) s body = body v := rfl

@[simp] theorem withArg_none {α : Type} (s : State) (body : α → Host.Outcome State Fault Refusal) :
    withArg none s body = faultOutcome .undefArg s := rfl

/-! ### The scan -/

/-- A scan changes nothing but what the other agents change, and TBLBUF. -/
theorem scanFrom_frame (pred : Image → Bool) (n i : Nat) (s : State) :
    ∃ c t g p k q b, (scanFrom pred n i s).2 =
      { s with regs := { s.regs with control := c }, table := t, ageCnt := g,
               eng := { s.eng with swPending := p }, drawCount := k, sched := q, tblBuf := b } := by
  induction n generalizing i s with
  | zero => exact ⟨s.regs.control, s.table, s.ageCnt, s.eng.swPending, s.drawCount, s.sched, s.tblBuf, rfl⟩
  | succ n ih =>
    unfold scanFrom tblRead selectEntry
    obtain ⟨c, t, g, p, k, q, h⟩ := interleave_frame s
    dsimp only
    split
    · exact ⟨c, t, g, p, k, q, Table.entry (interleave s).table i, by rw [h]⟩
    · obtain ⟨c', t', g', p', k', q', b', h'⟩ :=
        ih (i + 1) { interleave s with tblBuf := Table.entry (interleave s).table i }
      exact ⟨c', t', g', p', k', q', b', by rw [h', h]⟩

/-- The index a scan answers lies in the range scanned, and its entry, as read, satisfies the predicate (R180). -/
theorem scanFrom_found (pred : Image → Bool) (n i : Nat) (s : State) (j : Nat) (e : Image)
    (h : (scanFrom pred n i s).1 = some (j, e)) : i ≤ j ∧ j < i + n ∧ pred e = true := by
  induction n generalizing i s with
  | zero => simp [scanFrom] at h
  | succ n ih =>
    unfold scanFrom at h
    dsimp only at h
    split at h
    · rename_i hp
      simp only [Option.some.injEq, Prod.mk.injEq] at h
      obtain ⟨rfl, rfl⟩ := h
      exact ⟨le_refl _, by omega, hp⟩
    · have := ih (i + 1) _ h
      exact ⟨by omega, by omega, this.2.2⟩

end Sys2Proof.Machine
end

