-- ==== Sys2Proof/Laws/Lifecycle.lean ====
section
/-! SUPPORT. What the redraw of the table does (R346, R360; log 15): every entry below N becomes a free value, and the
table keeps its canonical form and its index bound. And when a run ends (R348; log 24). -/

namespace Sys2Proof.Machine

/-- The redraw of `n` entries from index `i` on writes a free value of its own into each, and no other entry. -/
theorem redrawnTable_entry (n i k : Nat) (t : Table) (j : Nat) :
    Table.entry (redrawnTable n i k t) j =
      if i ≤ j ∧ j < i + n then drawnImage (k + 3 * (j - i)) else Table.entry t j := by
  induction n generalizing i k t with
  | zero => simp only [redrawnTable]; rw [if_neg (by omega)]
  | succ n ih =>
    simp only [redrawnTable, ih, Table.entry_store]
    split
    · rw [if_pos (by omega), show k + 3 + 3 * (j - (i + 1)) = k + 3 * (j - i) by omega]
    · split
      · rw [if_pos (by omega), show k + 3 * (j - i) = k by omega]
      · rw [if_neg (by omega)]

theorem redrawnTable_wf (n i k : Nat) (t : Table) (h : Table.wf t = true) :
    Table.wf (redrawnTable n i k t) = true := by
  induction n generalizing i k t with
  | zero => exact h
  | succ n ih => exact ih _ _ _ (Table.wf_store t i _ h)

theorem redrawnTable_below (n i k m : Nat) (t : Table) (hm : i + n ≤ m) (h : Table.below m t = true) :
    Table.below m (redrawnTable n i k t) = true := by
  induction n generalizing i k t with
  | zero => exact h
  | succ n ih => exact ih _ _ _ (by omega) (Table.below_store m t i _ (by omega) h)

/-- CREATE leaves the table of a machine that lost no power before it, and redraws it otherwise (R290, R346). -/
theorem settleTable_kept (n : Nat) (s : State) (h : s.tableLost = false) : settleTable n s = s := by
  simp [settleTable, h]

theorem settleTable_redrawn (n : Nat) (s : State) (h : s.tableLost = true) : settleTable n s = redrawTable n s := by
  simp [settleTable, h]

/-! ### The end of a run (R348; log 24) -/

/-- R348 in its own terms. -/
theorem runEnded_iff (s : State) :
    runEnded s = true ↔ s.faulted = false ∧ Quiet s ∧ ∀ m ∈ s.agenda, ownerMove m = false := by
  simp only [runEnded, Quiet, Bool.and_eq_true, Bool.not_eq_true', Option.isNone_iff_eq_none, List.any_eq_false,
    Bool.not_eq_true, and_assoc]

/-- The machine idles at the end of a run. -/
theorem step_of_runEnded (s : State) (ha : s.agenda = []) (h : runEnded s = true) : step s = .next s := by
  simp [step, stepOnce, nextMove, idle, ha, h, ((runEnded_iff s).1 h).1]

/-- A machine that has not faulted and whose owner presents nothing more is at the end of its run after one step. -/
theorem runEnded_after_idle (s : State) (hi : Inv s) (hf : s.faulted = false) (ha : s.agenda = []) :
    ∃ t, step s = .next t ∧ runEnded t = true := by
  refine ⟨idle s, by simp [step, stepOnce, nextMove, ha, hf], ?_⟩
  unfold idle
  split
  · assumption
  · rename_i hn
    obtain ⟨v, hv⟩ : ∃ v, s.eng.swPending = some v := by
      cases hp : s.eng.swPending with
      | none => exact absurd ((runEnded_iff s).2 ⟨hf, hp, by simp [ha]⟩) hn
      | some v => exact ⟨v, rfl⟩
    have harm := hi.2.2.2.1 (by simp [hv])
    have hc : s.eng.created = true := by
      by_contra h
      have := (hi.2.2.2.2.2.1 (by simpa using h)).2.1
      simp [this] at harm
    have hsw := ((hi.2.2.2.2.1 hc).2.2.2.1 harm).2
    obtain ⟨tb, k, hw⟩ := writeControl_frame (readUnder v (namedMask s.cfg .control) ||| bitWord ageoutBit) s
    exact (runEnded_iff _).2 (by simp [tickWrite, swTimerPresent, hc, hsw, hv, hw, hf, ha])

end Sys2Proof.Machine
end

