-- ==== Sys2Proof/Laws/PerInstr.lean ====
section
/-! SUPPORT. A family of statements about each instruction as syntax: its command word matches the mask and the match of
its row of spec/opcode_table.json (spec/30_encoding.md R84), and an access has no command word (R90). -/

open Sys2Proof

namespace Sys2Proof.Laws.RowMatch

/-- The (mask, match) of the command's row of spec/opcode_table.json; an access has no command word. -/
def row : Instr → Option (Word × Word)
  | .tblRead => some (0xFFFFFFFF, 0x01)
  | .tblWrite => some (0xFFFFFFFF, 0x02)
  | .dump => some (0xFFFFFFFF, 0x03)
  | .restore => some (0xFFFFFFFF, 0x04)
  | .matchUcast => some (0xFFFFFFFF, 0x08)
  | .matchVlan => some (0xFFFFFFFF, 0x09)
  | .matchFree => some (0xFFFFFFFF, 0x0A)
  | .findAgeable => some (0xFFFFFFFF, 0x0B)
  | .addUcast _ _ _ _ => some (0xFFE0FE3F, 0x10)
  | .delUcast _ => some (0xFFFFFFBF, 0x11)
  | .addMcast _ _ _ => some (0xFFFF3DBF, 0x12)
  | .delMcast _ => some (0xFFFFFFBF, 0x13)
  | .flushMcast _ => some (0xFFFFFBFF, 0x14)
  | .addVlan => some (0xFFFFFFFF, 0x18)
  | .vlanAddModify => some (0xFFFFFFFF, 0x19)
  | .vlanDelModify => some (0xFFFFFFFF, 0x1A)
  | .delVlan _ => some (0xFFFFEFFF, 0x1B)
  | .setUnregMcast _ => some (0xFFFFF7FF, 0x1C)
  | .setAllmulti _ _ _ => some (0xFFE0F3FF, 0x1D)
  | .ctrlGet _ _ => some (0xFC00FFFF, 0x20)
  | .ctrlSet _ _ => some (0xFC00FFFF, 0x21)
  | .ratelimitMc _ => some (0xFFE0FFFF, 0x22)
  | .ratelimitBc _ => some (0xFFE0FFFF, 0x23)
  | .start => some (0xFFFFFFFF, 0x28)
  | .stop => some (0xFFFFFFFF, 0x29)
  | .statusQuery => some (0xFFFFFFFF, 0x2B)
  | .mmioRead _ _ => none
  | .mmioWrite _ _ _ => none

/-- The command word matches the row; an instruction without a row is no command. -/
def Statement (i : Instr) : Prop :=
  match row i with
  | some r => encodeWord i &&& r.1 = r.2
  | none => i.isCommand = false

/-- A flag below bit 13 shares no bit with the fixed bits of the rows that use it. -/
theorem flag_outside : ∀ f : Bool,
    flagAt f 6 &&& 0xFFE0FE3F = 0 ∧ flagAt f 7 &&& 0xFFE0FE3F = 0 ∧ flagAt f 8 &&& 0xFFE0FE3F = 0 ∧
    flagAt f 11 &&& 0xFFE0F3FF = 0 ∧ flagAt f 10 &&& 0xFFE0F3FF = 0 := by decide

/-- PORT shares no bit with the fixed bits of the rows that use it. -/
theorem port_outside : ∀ p : BitVec 5,
    fieldAt p 16 &&& 0xFFE0FE3F = 0 ∧ fieldAt p 16 &&& 0xFFE0F3FF = 0 ∧ fieldAt p 16 &&& 0xFC00FFFF = 0 ∧
    fieldAt p 16 &&& 0xFFE0FFFF = 0 := by decide +kernel

/-- CTRLID shares no bit with the fixed bits of the rows that use it. -/
theorem ctrlid_outside : ∀ c : BitVec 5, fieldAt c 21 &&& 0xFC00FFFF = 0 := by decide +kernel

/-- The fields of ADD_MCAST fall outside the mask of its row. -/
theorem addMcast_word : ∀ (vlan super : Bool) (mstate : BitVec 2),
    encodeWord (.addMcast vlan super mstate) &&& 0xFFFF3DBF = 0x12 := by decide +kernel

theorem tblRead : Statement .tblRead := by rfl
theorem tblWrite : Statement .tblWrite := by rfl
theorem dump : Statement .dump := by rfl
theorem restore : Statement .restore := by rfl
theorem matchUcast : Statement .matchUcast := by rfl
theorem matchVlan : Statement .matchVlan := by rfl
theorem matchFree : Statement .matchFree := by rfl
theorem findAgeable : Statement .findAgeable := by rfl
theorem addUcast (vlan secure blocked : Bool) (port : BitVec 5) : Statement (.addUcast vlan secure blocked port) := by
  simp only [Statement, row, encodeWord, BitVec.and_or_distrib_right, (flag_outside _).1, (flag_outside _).2.1,
    (flag_outside _).2.2.1, (port_outside _).1]
  rfl
theorem delUcast (vlan : Bool) : Statement (.delUcast vlan) := by cases vlan <;> rfl
theorem addMcast (vlan super : Bool) (mstate : BitVec 2) : Statement (.addMcast vlan super mstate) :=
  addMcast_word vlan super mstate
theorem delMcast (vlan : Bool) : Statement (.delMcast vlan) := by cases vlan <;> rfl
theorem flushMcast (any : Bool) : Statement (.flushMcast any) := by cases any <;> rfl
theorem addVlan : Statement .addVlan := by rfl
theorem vlanAddModify : Statement .vlanAddModify := by rfl
theorem vlanDelModify : Statement .vlanDelModify := by rfl
theorem delVlan (force : Bool) : Statement (.delVlan force) := by cases force <;> rfl
theorem setUnregMcast (en : Bool) : Statement (.setUnregMcast en) := by cases en <;> rfl
theorem setAllmulti (en any : Bool) (port : BitVec 5) : Statement (.setAllmulti en any port) := by
  simp only [Statement, row, encodeWord, BitVec.and_or_distrib_right, (flag_outside _).2.2.2.1,
    (flag_outside _).2.2.2.2, (port_outside _).2.1]
  rfl
theorem ctrlGet (port cid : BitVec 5) : Statement (.ctrlGet port cid) := by
  simp only [Statement, row, encodeWord, BitVec.and_or_distrib_right, (port_outside _).2.2.1, ctrlid_outside]
  rfl
theorem ctrlSet (port cid : BitVec 5) : Statement (.ctrlSet port cid) := by
  simp only [Statement, row, encodeWord, BitVec.and_or_distrib_right, (port_outside _).2.2.1, ctrlid_outside]
  rfl
theorem ratelimitMc (port : BitVec 5) : Statement (.ratelimitMc port) := by
  simp only [Statement, row, encodeWord, BitVec.and_or_distrib_right, (port_outside _).2.2.2]
  rfl
theorem ratelimitBc (port : BitVec 5) : Statement (.ratelimitBc port) := by
  simp only [Statement, row, encodeWord, BitVec.and_or_distrib_right, (port_outside _).2.2.2]
  rfl
theorem start : Statement .start := by rfl
theorem stop : Statement .stop := by rfl
theorem statusQuery : Statement .statusQuery := by rfl
theorem mmioRead (width : AccessWidth) (off : Word) : Statement (.mmioRead width off) := rfl
theorem mmioWrite (width : AccessWidth) (off v : Word) : Statement (.mmioWrite width off v) := rfl

end Sys2Proof.Laws.RowMatch
end

