-- ==== Sys2Proof/Laws/Scan.lean ====
section
/-! SUPPORT. The scan and the allocation order inside which no other agent steps, and the canonical form of the table
under the steps of the agents and the micro-steps. -/

namespace Sys2Proof.Machine

/-! ### The table stays canonical -/

/-- An agent step keeps the table canonical (R22, log 1). -/
theorem agentStep_wf (x : AgentStep) (s : State) (h : Table.wf s.table = true) :
    Table.wf (agentStep x s).table = true := by
  cases x with
  | tickRead =>
    simp only [agentStep, tickRead]
    split
    · obtain ⟨k, hk⟩ := readReg_frame .control s
      simp only [hk, h]
    · exact h
  | tickWrite =>
    simp only [agentStep, tickWrite]
    split
    · split
      · exact h
      · exact writeControl_wf _ s h
    · exact h
  | hwTick =>
    simp only [agentStep, hwTick]
    split
    · split
      · exact h
      · exact agingPass_wf s h
    · exact h
  | fwdLearn i u =>
    simp only [agentStep, fwdLearn, setEntry]
    split
    · exact Table.wf_store _ _ _ h
    · exact h
  | fwdTouch i =>
    simp only [agentStep, fwdTouch, setEntry]
    split
    · exact Table.wf_store _ _ _ h
    · exact h
  | fwdMove i p =>
    simp only [agentStep, fwdMove, setEntry]
    split
    · exact Table.wf_store _ _ _ h
    · exact h

theorem agentSteps_wf (xs : List AgentStep) (s : State) (h : Table.wf s.table = true) :
    Table.wf (agentSteps xs s).table = true := by
  induction xs generalizing s with
  | nil => exact h
  | cons x xs ih => exact ih _ (agentStep_wf x s h)

/-- What the other agents do before a micro-step keeps the table canonical. -/
theorem interleave_wf (s : State) (h : Table.wf s.table = true) : Table.wf (interleave s).table = true := by
  unfold interleave
  split
  · exact h
  · exact agentSteps_wf _ _ h

theorem tblRead_wf (i : Nat) (s : State) (h : Table.wf s.table = true) : Table.wf (tblRead i s).2.table = true :=
  interleave_wf s h

theorem tblWrite_wf (i : Nat) (e : Image) (s : State) (h : Table.wf s.table = true) :
    Table.wf (tblWrite i e s).table = true :=
  Table.wf_store _ _ _ (interleave_wf s h)

/-! ### The scan alone -/

/-- The first index from `i` on, of `n` indices, whose entry satisfies the predicate. -/
def firstFrom (pred : Image → Bool) (t : Table) (n i : Nat) : Option Nat :=
  (List.range' i n).find? fun j => pred (Table.entry t j)

/-- A scan alone answers the first match with its entry, which TBLBUF then holds, and otherwise changes TBLBUF only. -/
theorem scanFrom_alone (pred : Image → Bool) (n i : Nat) (s : State) (h : s.sched = []) :
    match firstFrom pred s.table n i with
    | some j => scanFrom pred n i s =
        (some (j, Table.entry s.table j), { s with tblBuf := Table.entry s.table j })
    | none => ∃ b, scanFrom pred n i s = (none, { s with tblBuf := b }) := by
  induction n generalizing i s with
  | zero => exact ⟨s.tblBuf, rfl⟩
  | succ n ih =>
    unfold scanFrom
    rw [tblRead_alone i s h]
    by_cases hp : pred (Table.entry s.table i) = true
    · simp [firstFrom, List.range'_succ, hp]
    · have := ih (i + 1) { s with tblBuf := Table.entry s.table i } h
      simpa [firstFrom, List.range'_succ, hp] using this

/-- R180 alone: the scan over the whole table answers the lowest index whose entry satisfies the predicate. -/
theorem scan_alone (pred : Image → Bool) (s : State) (h : s.sched = []) :
    match firstIndex pred s.cfg.n s.table with
    | some j => scan pred s = (some (j, Table.entry s.table j), { s with tblBuf := Table.entry s.table j })
    | none => ∃ b, scan pred s = (none, { s with tblBuf := b }) := by
  have := scanFrom_alone pred s.cfg.n 0 s h
  rwa [firstFrom, ← List.range_eq_range'] at this

/-- R189 alone: the allocation order answers the match, else the lowest FREE index, else the lowest ageable one, and
changes TBLBUF only. -/
theorem alloc_alone (found : Option Nat) (s : State) (h : s.sched = []) :
    ∃ b, alloc found s =
      ((match found with
        | some i => some i
        | none =>
          match firstIndex isFree s.cfg.n s.table with
          | some i => some i
          | none => firstIndex ageable s.cfg.n s.table), { s with tblBuf := b }) := by
  cases found with
  | some i => exact ⟨s.tblBuf, rfl⟩
  | none =>
    unfold alloc
    have hf := scan_alone isFree s h
    cases hi : firstIndex isFree s.cfg.n s.table with
    | some j =>
      rw [hi] at hf
      exact ⟨Table.entry s.table j, by simp only [matchFree, hf]⟩
    | none =>
      rw [hi] at hf
      obtain ⟨b, hb⟩ := hf
      have ha := scan_alone ageable { s with tblBuf := b } h
      dsimp only at ha
      cases hj : firstIndex ageable s.cfg.n s.table with
      | some j =>
        rw [hj] at ha
        exact ⟨Table.entry s.table j, by simp only [matchFree, hb, findAgeable, ha]⟩
      | none =>
        rw [hj] at ha
        obtain ⟨b', hb'⟩ := ha
        exact ⟨b', by simp only [matchFree, hb, findAgeable, hb']⟩

end Sys2Proof.Machine
end

