-- ==== Sys2Proof/Tests/Slice0.lean ====
section
/-! SUPPORT. Small tests. Expected values are those of spec/95_test_vectors.md (its section stands beside each group) or
are worked out by hand from the rule named. The witnesses at the end meet the hypotheses of the statements. -/

open Sys2Proof Sys2Proof.Machine

namespace Sys2Proof.Tests

set_option Elab.async false

/-! ### Helpers -/

/-- An engine of Cfg0 right after CREATE, with power-on registers. -/
def st0 : State := install Config.cfg0 State.reset

/-- An engine of another configuration. -/
def stOf (c : Cfg) : State := install c State.reset

/-- Cfg0 with hardware aging and AGEOUT_S = 10. -/
def cfgHw : Cfg := { Config.cfg0 with hasHwAutoaging := true, ageoutS := 10 }

/-- Cfg0 with software aging. -/
def cfgSw : Cfg := { Config.cfg0 with ageoutS := 10 }

/-- LAYOUT = NU, P = 4 (section 2.5). -/
def cfgNu : Cfg := { Config.cfg0 with layout := .nu, p := 4 }

/-- Cfg0 with a status register. -/
def cfgStatus : Cfg := { Config.cfg0 with hasStatusReg := true }

/-- The machine at reset on an instance whose STATUS holds `v`. -/
def chipOf (v : Word) : State := { State.reset with chip := { statusValue := v, idverValue := 0 } }

/-- The state with argument registers for the address 00:11:22:33:44:55 and VLAN id 10. -/
def args (s : State) : State :=
  { s with a := { s.a with
      mac := some 0x001122334455, vid := some 10, mask0 := some 3, mask1 := some 1, mask2 := some 0, mask3 := some 0,
      value := some 1, img := some 0x000000041000001122334455, buf := some (List.replicate 12 0) } }

/-- The state with a table. -/
def tab (t : Table) (s : State) : State := { s with table := t }

/-- The state with a.VALUE. -/
def val (v : Word) (s : State) : State := { s with a := { s.a with value := some v } }

/-- The state with a.MASK0. -/
def m0 (v : Word) (s : State) : State := { s with a := { s.a with mask0 := some v } }

/-- The state with masks a.MASK0 to a.MASK3. -/
def masks (x y z w : Word) (s : State) : State :=
  { s with a := { s.a with mask0 := some x, mask1 := some y, mask2 := some z, mask3 := some w } }

/-- The state with a.MAC. -/
def macIs (v : Mac) (s : State) : State := { s with a := { s.a with mac := some v } }

/-- The state with a.VID. -/
def vidIs (v : Vid) (s : State) : State := { s with a := { s.a with vid := some v } }

/-- The next state of an outcome, `State.reset` where there is none. -/
def after (o : Host.Outcome State Fault Refusal) : State :=
  match o with
  | .next t => t
  | .fault _ => State.reset
  | .refused _ => State.reset

/-- What a run of one instruction leaves: status, index and table. -/
def got (i : Instr) (s : State) : Nat × Option Word × Table :=
  let t := after (exec i s)
  (t.res.status.toNat, t.res.index, t.table)

/-! ### WellFormed: each check refuses an ill-formed term -/

theorem test_wf_refuses_16_bit_read : (Instr.mmioRead .w16 0x008).wf = false := by decide
theorem test_wf_refuses_64_bit_write : (Instr.mmioWrite .w64 0x008 0).wf = false := by decide
theorem test_wf_refuses_misaligned_read : (Instr.mmioRead .w32 0x00A).wf = false := by decide
theorem test_wf_accepts_word_access : (Instr.mmioWrite .w32 0x008 0).wf = true := by decide
theorem test_cfg_refuses_classic_p4 : cfgWf { Config.cfg0 with p := 4 } = false := by decide +kernel
theorem test_cfg_refuses_nu_p21 : cfgWf { Config.cfg0 with layout := .nu, p := 21 } = false := by decide +kernel
theorem test_cfg_accepts_nu_p20 : cfgWf { Config.cfg0 with layout := .nu, p := 20 } = true := by decide +kernel

/-! ### Decode: words written out from R80 and R82, and the vectors of 95_test_vectors.md -/

theorem test_decode_table_port : decodeWord 0x00000001 = .ok .tblRead ∧ decodeWord 0x00000002 = .ok .tblWrite ∧
    decodeWord 0x00000003 = .ok .dump ∧ decodeWord 0x00000004 = .ok .restore := ⟨rfl, rfl, rfl, rfl⟩
theorem test_decode_search : decodeWord 0x00000008 = .ok .matchUcast ∧ decodeWord 0x00000009 = .ok .matchVlan ∧
    decodeWord 0x0000000A = .ok .matchFree ∧ decodeWord 0x0000000B = .ok .findAgeable := ⟨rfl, rfl, rfl, rfl⟩
-- 0b00000_00000_00010_00_000_0_0_0_1_1_1_010000: PORT 2, BLOCKED, SECURE, VLAN, OPC 0x10
theorem test_decode_addUcast : decodeWord 0x000201D0 = .ok (.addUcast true true true 2) := rfl
theorem test_decode_addUcast_secure : decodeWord 0x00010090 = .ok (.addUcast false true false 1) := rfl
theorem test_decode_delUcast : decodeWord 0x00000051 = .ok (.delUcast true) := rfl
-- MSTATE [15:14] = 3, VLAN [6], OPC 0x12
theorem test_decode_addMcast : decodeWord 0x0000C052 = .ok (.addMcast true false 3) := rfl
theorem test_decode_addMcast_super : decodeWord 0x00000212 = .ok (.addMcast false true 0) := rfl
theorem test_decode_delMcast : decodeWord 0x00000053 = .ok (.delMcast true) := rfl
theorem test_decode_flushMcast : decodeWord 0x00000414 = .ok (.flushMcast true) := rfl
theorem test_decode_vlan : decodeWord 0x00000018 = .ok .addVlan ∧ decodeWord 0x00000019 = .ok .vlanAddModify ∧
    decodeWord 0x0000001A = .ok .vlanDelModify ∧ decodeWord 0x0000101B = .ok (.delVlan true) := ⟨rfl, rfl, rfl, rfl⟩
theorem test_decode_setUnregMcast : decodeWord 0x0000081C = .ok (.setUnregMcast true) := rfl
-- EN [11], ANY [10] and PORT [20:16] kept apart
theorem test_decode_setAllmulti : decodeWord 0x0002081D = .ok (.setAllmulti true false 2) ∧
    decodeWord 0x0000041D = .ok (.setAllmulti false true 0) := ⟨rfl, rfl⟩
-- CTRLID [25:21] = 24, PORT [20:16] = 1
theorem test_decode_ctrlGet : decodeWord 0x03010020 = .ok (.ctrlGet 1 24) := rfl
theorem test_decode_ctrlSet : decodeWord 0x01810021 = .ok (.ctrlSet 1 12) := rfl
theorem test_decode_ratelimit : decodeWord 0x00010022 = .ok (.ratelimitMc 1) ∧
    decodeWord 0x00020023 = .ok (.ratelimitBc 2) := ⟨rfl, rfl⟩
theorem test_decode_lifecycle : decodeWord 0x00000028 = .ok .start ∧ decodeWord 0x00000029 = .ok .stop ∧
    decodeWord 0x0000002B = .ok .statusQuery := ⟨rfl, rfl, rfl⟩
theorem test_decode_access : decodeRequest (.access .read .w32 8 0) = .ok (.mmioRead .w32 8) ∧
    decodeRequest (.access .write .w32 8 5) = .ok (.mmioWrite .w32 8 5) := ⟨rfl, rfl⟩
theorem test_decode_refuses : decodeWord 0x00000005 = .error .unassignedOpcode ∧
    decodeWord 0x00012010 = .error .reservedBit ∧ decodeWord 0x04000008 = .error .reservedBit ∧
    decodeWord 0x00010011 = .error .unusedField := ⟨rfl, rfl, rfl, rfl⟩
theorem test_decodeTableWord : decodeTableWord 32 0x00000028 = some .start ∧ decodeTableWord 32 0x2A = none :=
  ⟨rfl, rfl⟩

/-! ### Codec (section 2.1) -/

theorem test_codec_straddle : setField 0 28 8 0xAB = 0x000000000000000AB0000000 ∧
    getField 0x000000000000000AB0000000 28 8 = 0xAB := by decide +kernel
theorem test_codec_masks_value : setField 0 60 2 7 = 0x000000003000000000000000 ∧
    setField 0 64 32 0xDEADBEEF = 0xDEADBEEF0000000000000000 := by decide +kernel
theorem test_codec_range : getFieldChecked 0 90 8 = .error .codecRange ∧ getFieldChecked 0 0 0 = .error .codecRange ∧
    setFieldChecked 0 0 33 1 = .error .codecRange ∧ setFieldChecked 0 96 1 1 = .error .codecRange := ⟨rfl, rfl, rfl, rfl⟩
theorem test_mac_roundtrip : setAddr (BitVec.allOnes 96) 0 = 0xFFFFFFFFFFFF000000000000 ∧
    getAddr (setAddr 0 0xFFFFFFFFFFFF) = 0xFFFFFFFFFFFF := by decide +kernel
theorem test_disallowed_field : (vlanSet 0 .unregMcastIdx 1 st0).1 = 0 ∧
    (vlanSet 0 .unregMcastIdx 1 st0).2.eng.contractViolation = true := by decide +kernel

/-! ### Table port and accesses (section 2.2) -/

theorem test_tblRead_last_index : (after (exec .tblRead (tab [(3, 5)] (val 3 st0)))).res.img = some 5 ∧
    (after (exec .tblRead (val 3 st0))).res.index = some 3 := by decide +kernel
theorem test_tblRead_index_fault : (after (exec .tblRead (val 4 st0))).faulted = true ∧
    (after (exec .tblRead (val 4 st0))).lastFault = some .tableIndex := by decide +kernel
theorem test_tblWrite : got .tblWrite (val 3 (args st0)) = (0, some 3, [(3, 0x000000041000001122334455)]) := by
  decide +kernel
theorem test_dump : (after (exec .dump (tab [(1, 0x000000041000001122334455)] st0))).res.buf =
    some [0, 0, 0, 0x4, 0x10000011, 0x22334455, 0, 0, 0, 0, 0, 0] := by decide +kernel
theorem test_restore : got .restore { st0 with a := { st0.a with
    buf := some [0, 0, 0, 0x4, 0x10000011, 0x22334455, 0, 0, 0, 0, 0, 0] } } =
    (0, none, [(1, 0x000000041000001122334455)]) := by decide +kernel
theorem test_restore_length : got .restore { st0 with a := { st0.a with buf := some (List.replicate 11 1) } } =
    (1, none, []) := by decide +kernel
theorem test_mmioRead_control : ((after (exec (.mmioRead .w32 0x008)
    { st0 with regs := { st0.regs with control := 0x80000000 } })).busData.map (·.named)) = some 0x80000000 := by
  decide +kernel
theorem test_mmioRead_refused : (after (exec (.mmioRead .w32 0x00C) st0)).lastRefusal = some .mmioOffset ∧
    (after (exec (.mmioRead .w16 0x008) st0)).lastRefusal = some .mmioWidth := by decide +kernel
theorem test_mmioWrite_commit : (after (exec (.mmioWrite .w32 0x020 0x80000002)
    { st0 with tblBuf := 0x000000041000001122334455 })).table = [(2, 0x000000041000001122334455)] := by decide +kernel
theorem test_mmioWrite_clear : (after (exec (.mmioWrite .w32 0x008 0x40000000) (tab [(1, 7)] st0))).table = [] ∧
    (after (exec (.mmioWrite .w32 0x014 5) st0)).lastRefusal = some .mmioOffset := by decide +kernel

/-! ### Search (section 2.3) -/

theorem test_matchUcast_first : (after (exec .matchUcast (vidIs 0 (args (tab
    [(1, 0x000000041000001122334455), (3, 0x000000041000001122334455)] st0))))).res.index = some 1 := by decide +kernel
theorem test_matchUcast_vid : got .matchUcast (vidIs 0 (args (tab [(0, 0x000000093005001122334455)] st0))) =
    (2, none, [(0, 0x000000093005001122334455)]) := by decide +kernel
theorem test_matchVlan_skips_vlan_addr : (after (exec .matchVlan (args (tab
    [(0, 0x00000000300A000000000000), (2, 0x00000000200A000001000003)] st0)))).res.index = some 2 := by decide +kernel
theorem test_matchFree_junk : (after (exec .matchFree (tab [(0, 0x0000000000FF000012345678)] st0))).res.index =
    some 0 := by decide +kernel
theorem test_findAgeable : (after (exec .findAgeable (tab
    [(0, 0x00000004500001005E000001), (1, 0x00000008D0000066778899AA)] st0))).res.index = some 1 := by decide +kernel
theorem test_findAgeable_none : (after (exec .findAgeable (tab
    [(0, 0x000000009000001122334455), (1, 0x000000041000001122334455)] st0))).res.status = 2 := by decide +kernel

/-! ### Address entries (section 2.4) -/

theorem test_addUcast : got (.addUcast true true true 2) (vidIs 5 (args st0)) =
    (0, some 0, [(0, 0x0000000B3005001122334455)]) := by decide +kernel
theorem test_addUcast_evicts : got (.addUcast false false false 0) (macIs 0x00AABBCCDDEE (tab
    [(0, 0x000000041000001122334455), (1, 0x00000008D0000066778899AA), (2, 0x000000041000001122334456),
      (3, 0x000000041000001122334457)] st0)) =
    (0, some 1, [(0, 0x000000041000001122334455), (1, 0x00000000100000AABBCCDDEE), (2, 0x000000041000001122334456),
      (3, 0x000000041000001122334457)]) := by decide +kernel
theorem test_delUcast : got (.delUcast false) (args (tab [(0, 0x000000041000001122334455)] st0)) = (0, some 0, []) := by
  decide +kernel
theorem test_delUcast_not_found : got (.delUcast false) (args st0) = (2, none, []) := by decide +kernel
theorem test_addMcast : got (.addMcast true false 3) (macIs 0x01005E000001 (m0 2 (args st0))) =
    (0, some 0, [(0, 0x00000008F00A01005E000001)]) := by decide +kernel
theorem test_addMcast_accumulates : got (.addMcast false false 0) (macIs 0x01005E000001 (m0 2 (tab
    [(0, 0x00000004100001005E000001)] st0))) = (0, some 0, [(0, 0x0000000C100001005E000001)]) := by decide +kernel
theorem test_delMcast : got (.delMcast false) (macIs 0x01005E000001 (m0 1 (tab
    [(0, 0x0000000C100001005E000001)] st0))) = (0, some 0, [(0, 0x00000008100001005E000001)]) := by decide +kernel
theorem test_delMcast_last : got (.delMcast false) (macIs 0x01005E000001 (m0 2 (tab
    [(0, 0x00000008100001005E000001)] st0))) = (0, some 0, [(0, 0x00000008000001005E000001)]) := by decide +kernel
theorem test_flushMcast : got (.flushMcast true) (m0 2 (tab
    [(0, 0x0000000C100001005E000001), (1, 0x0000001E1000FFFFFFFFFFFF)] st0)) =
    (0, none, [(0, 0x00000004100001005E000001), (1, 0x0000001E1000FFFFFFFFFFFF)]) := by decide +kernel
theorem test_flushMcast_vid : got (.flushMcast false) (vidIs 10 (m0 2 (tab [(0, 0x00000008F00A01005E000001)] st0))) =
    (0, none, [(0, 0x00000008C00A01005E000001)]) := by decide +kernel

/-! ### VLAN entries (section 2.5) -/

theorem test_addVlan : got .addVlan (args st0) = (0, some 0, [(0, 0x00000000200A000001000003)]) ∧
    (after (exec .addVlan (args st0))).eng.untagVid.getLsbD 10 = true := by decide +kernel
theorem test_addVlan_nu : (after (exec .addVlan (masks 3 1 2 1 (args (stOf cfgNu))))).table =
      [(0, 0x00000000200A000001100003)] ∧
    (after (exec .addVlan (masks 3 1 2 1 (args (stOf cfgNu))))).regs.maskMux[0] = 2 ∧
    (after (exec .addVlan (masks 3 1 2 1 (args (stOf cfgNu))))).regs.maskMux[1] = 1 := by decide +kernel
theorem test_vlanAddModify : got .vlanAddModify (masks 4 4 0 0 (args (tab [(0, 0x00000000200A000001000003)] st0))) =
    (0, some 0, [(0, 0x00000000200A000005000007)]) := by decide +kernel
theorem test_vlanDelModify : got .vlanDelModify (m0 4 (args (tab [(0, 0x00000000200A000005000007)] st0))) =
    (0, some 0, [(0, 0x00000000200A000001000003)]) := by decide +kernel
theorem test_vlanDelModify_frees : got .vlanDelModify (m0 3 (args (tab [(0, 0x00000000200A000001000003)] st0))) =
    (0, some 0, [(0, 0x00000000000A000000000003)]) := by decide +kernel
theorem test_delVlan_keeps_host : got (.delVlan false) (m0 3 (args (tab [(0, 0x00000000200A000005000007)] st0))) =
    (0, some 0, [(0, 0x00000000200A000005000005)]) := by decide +kernel
theorem test_delVlan_force : got (.delVlan true) (m0 4 (args (tab [(0, 0x00000000200A000005000007)] st0))) =
    (0, some 0, [(0, 0x00000000000A000000000007)]) := by decide +kernel
theorem test_setUnregMcast : got (.setUnregMcast true) (m0 2 (tab [(0, 0x00000000200A000001000003)] st0)) =
    (0, none, [(0, 0x00000000200A000001000203)]) := by decide +kernel
theorem test_setUnregMcast_nu : (after (exec (.setUnregMcast true) (m0 0xC (tab [(0, 0x00000000200A000001100003)]
    (stOf cfgNu))))).regs.maskMux[1] = 0xC := by decide +kernel
theorem test_setAllmulti : got (.setAllmulti true false 2) (tab [(0, 0x000000002014000000000006)] st0) =
    (0, none, [(0, 0x000000002014000000000106)]) := by decide +kernel
theorem test_setAllmulti_port : got (.setAllmulti true false 0) (tab [(0, 0x000000002014000000000006)] st0) =
    (0, none, [(0, 0x000000002014000000000006)]) ∧ (got (.setAllmulti true false 3) st0).1 = 1 := by decide +kernel

/-! ### Controls (section 2.6) -/

theorem test_ctrlGet : (after (exec (.ctrlGet 1 24)
    { st0 with regs := { st0.regs with portctl := st0.regs.portctl.set 1 0x00020003 } })).res.value = some 2 := by
  decide +kernel
theorem test_ctrlGet_status : (got (.ctrlGet 0 27) st0).1 = 1 ∧ (got (.ctrlGet 0 25) st0).1 = 4 := by decide +kernel
theorem test_ctrlSet : (after (exec (.ctrlSet 1 12) (val 3 st0))).regs.portctl[1] = 3 ∧
    (got (.ctrlSet 1 12) (val 4 st0)).1 = 1 := by decide +kernel
theorem test_ctrlSet_clear : (after (exec (.ctrlSet 0 1) (val 1 (tab [(2, 9)] st0)))).table = [] := by decide +kernel
theorem test_ratelimitMc : (after (exec (.ratelimitMc 1) (val 2500 st0))).res.value = some 2000 ∧
    (after (exec (.ratelimitMc 1) (val 2500 st0))).res.aux = some 500 ∧
    (after (exec (.ratelimitMc 1) (val 2500 st0))).regs.portctl[1] = 0x00020000 := by decide +kernel
theorem test_ratelimitMc_bounds : (got (.ratelimitMc 1) (val 500 st0)).1 = 1 ∧
    (got (.ratelimitMc 1) (val 255999 st0)).1 = 0 ∧ (got (.ratelimitMc 1) (val 256000 st0)).1 = 1 := by decide +kernel
theorem test_ratelimitBc : (after (exec (.ratelimitBc 2) (val 1000 st0))).regs.portctl[2] = 0x01000000 ∧
    (got (.ratelimitBc 3) (val 1000 st0)).1 = 1 := by decide +kernel

/-! ### Lifecycle and aging (section 2.7) -/

theorem test_start_hw : (after (exec .start (tab [(0, 1)] (stOf cfgHw)))).regs.prescale = 0x3D090 ∧
    (after (exec .start (stOf cfgHw))).regs.control = 0x80000000 ∧
    (after (exec .start (stOf cfgHw))).ageCnt = 0x9C4 ∧ (after (exec .start (tab [(0, 1)] (stOf cfgHw)))).table = [] := by
  decide +kernel
theorem test_start_sw_armed : (after (exec .start (stOf cfgSw))).eng.swArmed = true ∧
    agingUnits { cfgHw with fRef := 1000000000, ageoutS := 20000 } = 0xFFFFFF := by decide +kernel
theorem test_stop : agingUnits { cfgHw with fRef := 500000 } = 0 ∧
    (agingStop { stOf cfgHw with regs := { st0.regs with period := 3 } }).regs.period = 0 ∧
    (clearControlBit enableBit { st0 with regs := { st0.regs with control := 0x800001FF } }).regs.control = 0x1FF := by
  decide +kernel
theorem test_statusQuery : (after (exec .statusQuery (stOf cfgStatus))).res.status = 0 ∧
    (got .statusQuery st0).1 = 4 := by decide +kernel
theorem test_status_holds_the_constant : ((after (exec (.mmioRead .w32 0x004)
    (install cfgStatus (chipOf 0x00000401)))).busData.map (·.named)) = some 0x00000401 := by decide +kernel
theorem test_freed_vlan_keeps_its_fields : (after (exec (.delVlan true) (args (tab
    [(0, 0x00000000200A000001100003)] (stOf cfgNu))))).table = [(0, 0x00000000000A000000100003)] := by decide +kernel
theorem test_narrowed_nu_writes_the_named_registers : let t := after (exec .vlanDelModify (m0 1 (args (tab
      [(0, 0x00000000200A000003100003)] { stOf cfgNu with regs :=
        { st0.regs with maskMux := #v[3, 7, 0xF, 0, 0, 0, 0, 0] } }))))
    t.table = [(0, 0x00000000200A000002100002)] ∧ t.regs.maskMux = #v[2, 2, 0xF, 0, 0, 0, 0, 0] := by decide +kernel
theorem test_agingPass : ageEntry .exact 0x00000008D0000066778899AA 0 = 0x0000000850000066778899AA ∧
    ageEntry .exact 0x0000000850000066778899AA 0 = 0 ∧
    ageEntry .exact 0x0000000850000066778899AA 1 = 0x0000000840000066778899AA ∧
    ageEntry .exact 0x000000041000001122334455 0 = 0x000000041000001122334455 := by decide +kernel
theorem test_hwTick : (agentStep .hwTick { stOf cfgHw with regs := { st0.regs with period := 3 }, ageCnt := 3 }).ageCnt = 2 ∧
    (agentStep .hwTick { stOf cfgHw with regs := { st0.regs with period := 3 }, ageCnt := 1 }).ageCnt = 3 := by
  decide +kernel
theorem test_fwd_learns : (agentStep (.fwdLearn 0 ⟨none, 0x001122334455, false, 1⟩)
    { st0 with regs := { st0.regs with control := 0x80000000 } }).table = [(0, 0x000000045000001122334455)] := by
  decide +kernel
theorem test_fwd_touch_and_move : let s := tab [(1, 0x0000000450000066778899AA)] { st0 with regs :=
      { st0.regs with control := 0x80000000 } }
    (agentStep (.fwdTouch 1) s).table = [(1, 0x00000004D0000066778899AA)] ∧
    (agentStep (.fwdMove 1 2) s).table = [(1, 0x00000008D0000066778899AA)] := by decide +kernel
theorem test_create_counts_from_status :
    entryCount { p := 3, fRef := 250000000, ageoutS := 0, variants := [] }
      { entries := 0, policers := 0, layout := .classic, hasStatusReg := true } 0x00000402 = some 2048 ∧
    entryCount { p := 3, fRef := 250000000, ageoutS := 0, variants := [] }
      { entries := 0, policers := 0, layout := .classic, hasStatusReg := true } 0x00000400 = none := by decide +kernel
theorem test_create_unknown : (create { p := 3, fRef := 250000000, ageoutS := 0, variants := [] } "x" State.reset) =
    { State.reset with lastCreate := some .unknownIdentity } := rfl

/-! ### Steps -/

theorem test_step_refuses_illegal_word :
    (after (step { st0 with agenda := [.request (.word 0x00000005)] })).refused = true := by decide +kernel
theorem test_first_step_runs_the_placed_word :
    (after (step (State.reset.withFetchWord 32 0x0000000A))).res.index = some 0 := by decide +kernel
theorem test_reset_memory_wf : Table.wf State.reset.table = true := rfl

/-! ### Witnesses: a state and operands that meet the hypotheses of each statement, clause by clause -/

/-- Started with ENABLE = 1. -/
def stOn : State := { st0 with regs := { st0.regs with control := 0x80000000 }, eng := { st0.eng with started := true } }

/-- A SW engine, started and armed, with ENABLE = 1. -/
def stSw : State :=
  { stOf cfgSw with
    regs := { st0.regs with control := 0x80000000 }
    eng := { (stOf cfgSw).eng with started := true, swArmed := true } }

/-- A SW engine with a tick pending. -/
def stPending : State :=
  { stSw with eng := { stSw.eng with swPending := some { named := 0x80000000, mask := 0xE00001FF, free := 0 } } }

theorem test_witness_DecodeEncodeGivesTheInstruction :
    (Instr.ctrlSet 31 31).wf = true ∧ (Instr.mmioWrite .w32 0xFFFFFFFC 0xFFFFFFFF).wf = true := by decide

theorem test_witness_LegalWordsMatchOneRowAndOthersAreRefused :
    (∃ i, decodeWord 0x03FF0021 = .ok i) ∧ (∀ i, decodeWord 0x00000005 ≠ .ok i) ∧ Live st0 ∧
    ({ st0 with agenda := [.request (.word 0x00000005)] } : State).agenda = .request (.word 0x00000005) :: [] :=
  ⟨⟨.ctrlSet 31 31, rfl⟩,
    (fun _ h => by rw [show decodeWord 0x00000005 = .error .unassignedOpcode from rfl] at h; cases h), by decide, rfl⟩

theorem test_witness_StepRunsTheDecodedInstruction :
    Live { st0 with agenda := [.request (.word 0x00000028)] } ∧ decodeRequest (.word 0x00000028) = .ok .start :=
  ⟨by decide, rfl⟩

theorem test_witness_NothingRunsBeforeCreate :
    State.reset.faulted = false ∧ State.reset.eng.created = false ∧ st0.faulted = false ∧ st0.eng.created = true := by
  decide

theorem test_witness_InstructionsAnswerUnlessFaulted : ({ st0 with faulted := true } : State).faulted = true ∧
    st0.faulted = false := by decide

theorem test_witness_UndefinedArgumentFaults : Live st0 ∧ argsDefined .tblRead st0 = false ∧
    argsDefined (.addUcast true false false 0) { st0 with a := { st0.a with mac := some 0 } } = false ∧
    argsDefined .addVlan (m0 3 (vidIs 1 st0)) = false := by decide

theorem test_witness_CodecRoundTrip : codecInRange 28 8 = true ∧ (0xFF : Word).toNat < 2 ^ 8 ∧
    codecInRange 64 32 = true ∧ (0xFFFFFFFF : Word).toNat < 2 ^ 32 ∧ codecInRange 95 1 = true := by decide

theorem test_witness_CodecFaultsOutsideItsRange : codecInRange 0 32 = true ∧ codecInRange 0 33 = false ∧
    codecInRange 0 0 = false ∧ codecInRange 96 1 = false ∧ codecInRange 90 8 = false := by decide

theorem test_witness_MacAddressRoundTrip : 48 ≤ 95 := by decide

theorem test_witness_TablePortIsTheRegisterSequence : 0 < 2 ^ 31 ∧ 2 ^ 31 - 1 < 2 ^ 31 := by decide

theorem test_witness_DisallowedVlanFieldIsReported : vlanPlace st0.cfg .unregMcastIdx = none ∧
    vlanPlace cfgNu .regMcastMsk = none ∧ ∃ t, exec .matchFree st0 = .next t := ⟨rfl, rfl, _, rfl⟩

theorem test_witness_MmioReadReturnsTheNamedFields : Live st0 ∧ alignedOffset 0x048 = true ∧
    regAt st0.cfg (0x048 : Word).toNat = some (.portctl 2) := by decide +kernel

theorem test_witness_MmioOutsideTheMapIsRefused : Live st0 ∧ AccessWidth.w16.wf = false ∧ alignedOffset 0x00A = false ∧
    regAt st0.cfg (0x04C : Word).toNat = none := by decide +kernel

theorem test_witness_MmioWriteStoresTheNamedFields : Live (stOf cfgNu) ∧ cfgNu.p ≤ 20 ∧ alignedOffset 0x0DC = true ∧
    regAt cfgNu (0x0DC : Word).toNat = some (.maskMux 7) ∧ regAt cfgNu (0x000 : Word).toNat = some .idver ∧
    Reg.maskMux 7 ∉ [Reg.idver, .status, .control, .agingTimer, .tableControl, .tableWord2, .tableWord1, .tableWord0] := by
  decide +kernel

theorem test_witness_MmioTableControlSelectsOrCommits : Live st0 ∧ alignedOffset 0x020 = true ∧
    regAt st0.cfg (0x020 : Word).toNat = some .tableControl ∧ ¬ st0.cfg.n ≤ ((0x80000003 : Word) &&& 0x7FFFFFFF).toNat ∧
    st0.cfg.n ≤ ((0x80000004 : Word) &&& 0x7FFFFFFF).toNat := by decide +kernel

theorem test_witness_MmioTableWordStagesOneWord : Live st0 ∧ alignedOffset 0x034 = true ∧
    regAt st0.cfg (0x034 : Word).toNat = some .tableWord2 ∧ regAt st0.cfg (0x038 : Word).toNat = some .tableWord1 ∧
    regAt st0.cfg (0x03C : Word).toNat = some .tableWord0 := by decide +kernel

theorem test_witness_MmioControlStoresClearsAges : Live st0 ∧ alignedOffset 0x008 = true ∧
    regAt st0.cfg (0x008 : Word).toNat = some .control := by decide +kernel

theorem test_witness_MmioAgingTimerLoadsTheCounter : Live (stOf cfgHw) ∧ alignedOffset 0x014 = true ∧
    regAt (stOf cfgHw).cfg (0x014 : Word).toNat = some .agingTimer ∧ cfgSw.hasHwAutoaging = false := by decide +kernel

theorem test_witness_TblReadAnswersTheEntry : Live (val 3 st0) ∧ (val 3 st0).a.value = some 3 ∧
    (3 : Word).toNat < st0.cfg.n ∧ st0.a.value = none := by decide

theorem test_witness_TblWriteWritesTheEntry : Live (args st0) ∧ (args st0).a.value = some 1 ∧
    (args st0).a.img = some 0x000000041000001122334455 ∧ st0.a.img = none := by decide

theorem test_witness_DumpAnswersTheTable : Ready st0 := by decide

theorem test_witness_RestoreWritesTheTable : Ready (args st0) ∧ (args st0).a.buf = some (List.replicate 12 0) ∧
    (List.replicate 12 (0 : Word)).length = 3 * (args st0).cfg.n ∧
    (List.replicate 11 (0 : Word)).length ≠ 3 * st0.cfg.n := by decide

theorem test_witness_MatchAnswersTheFirstMatch : Ready (args st0) ∧ (args st0).a.mac = some 0x001122334455 ∧
    (args st0).a.vid = some 10 ∧
    firstIndex (vlanMatches 10) 4 (tab [(2, 0x00000000200A000001000003)] st0).table = some 2 ∧
    firstIndex (vlanMatches 10) 4 st0.table = none := by decide +kernel

theorem test_witness_FindAnswersTheFirstIndex : Ready st0 ∧ firstIndex isFree 4 st0.table = some 0 ∧
    firstIndex ageable 4 st0.table = none := by decide +kernel

theorem test_witness_UcastImageFields : cfgWf cfgNu = true ∧ (3 : BitVec 5).toNat < cfgNu.p := by decide +kernel

theorem test_witness_AddUcastWritesTheEntry : Ready (args st0) ∧ (args st0).a.mac = some 0x001122334455 ∧
    scopedVid true (args st0) = some 10 ∧ scopedVid false st0 = some 0 ∧ (2 : BitVec 5).toNat < st0.cfg.p ∧
    ¬ (3 : BitVec 5).toNat < st0.cfg.p ∧ slotFor (addrMatches 0x001122334455 10) 4 st0.table = some 0 ∧
    slotFor (addrMatches 0x001122334455 10) 1 [(0, 0x00000000200A000001000003)] = none := by decide +kernel

theorem test_witness_DelUcastFreesTheMatch : Ready (args st0) ∧ (args st0).a.mac = some 0x001122334455 ∧
    scopedVid false (args st0) = some 0 ∧
    firstIndex (addrMatches 0x001122334455 0) 4 [(0, 0x000000041000001122334455)] = some 0 ∧
    firstIndex (addrMatches 0x001122334455 0) 4 [] = none := by decide +kernel

theorem test_witness_McastImageFields : cfgWf cfgNu = true ∧ (0xF : Word) &&& ~~~portMaskAll cfgNu = 0 := by
  decide +kernel

theorem test_witness_AddMcastWritesTheEntry : Ready (args st0) ∧ (args st0).a.mac = some 0x001122334455 ∧
    (args st0).a.mask0 = some 3 ∧ scopedVid true (args st0) = some 10 := by decide

theorem test_witness_DelMcastRemovesPorts : Ready (args st0) ∧ (args st0).a.mac = some 0x001122334455 ∧
    (args st0).a.mask0 = some 3 ∧ scopedVid false (args st0) = some 0 := by decide

theorem test_witness_FlushMcastRemovesPortsEverywhere : Ready (args st0) ∧ (args st0).a.mask0 = some 3 ∧
    (args st0).a.vid.isSome = true := by decide

theorem test_witness_AddVlanWritesTheEntry : Ready (args (stOf cfgNu)) ∧ cfgWf (args (stOf cfgNu)).cfg = true ∧
    (args (stOf cfgNu)).a.vid = some 10 ∧ (args (stOf cfgNu)).a.mask0 = some 3 ∧
    (args (stOf cfgNu)).a.mask1 = some 1 ∧ (args (stOf cfgNu)).a.mask2 = some 0 ∧
    (args (stOf cfgNu)).a.mask3 = some 0 ∧ indirect cfgNu = true ∧ indirect st0.cfg = false := by decide +kernel

theorem test_witness_VlanAddModifyMergesTheMasks : Ready (args st0) ∧ cfgWf (args st0).cfg = true ∧
    (args st0).a.vid = some 10 ∧ (args st0).a.mask0 = some 3 ∧ (args st0).a.mask1 = some 1 ∧
    (args st0).a.mask2 = some 0 ∧ (args st0).a.mask3 = some 0 := by decide +kernel

theorem test_witness_VlanDelModifyNarrowsTheMasks : Ready (args st0) ∧ cfgWf (args st0).cfg = true ∧
    (args st0).a.vid = some 10 ∧ (args st0).a.mask0 = some 3 ∧ portMask st0.cfg 3 = 3 := by decide +kernel

theorem test_witness_DelVlanFreesOrNarrows : Ready (args st0) ∧ cfgWf (args st0).cfg = true ∧
    (args st0).a.vid = some 10 ∧ (args st0).a.mask0 = some 3 ∧
    (vlanMasksOf st0.cfg st0.regs.maskMux 0x00000000200A000005000007).mem &&& ~~~portMask st0.cfg 3 ≠ 0 ∧
    (vlanMasksOf st0.cfg st0.regs.maskMux 0x00000000200A000001000003).mem &&& ~~~portMask st0.cfg 3 = 0 := by
  decide +kernel

theorem test_witness_SetUnregMcastTogglesEveryVlan : Ready (args st0) ∧ (args st0).a.mask0 = some 3 ∧
    indirect st0.cfg = false ∧ indirect (stOf cfgNu).cfg = true ∧ vlanPlace st0.cfg .unregMcastMsk = some (8, 3) := by
  decide

theorem test_witness_SetAllmultiTogglesTheHostBit : Ready st0 ∧ st0.cfg.p ≤ (3 : BitVec 5).toNat ∧
    (2 : BitVec 5).toNat < st0.cfg.p := by decide

/-- The descriptor of a control id of Cfg0. -/
def descAt (cid : Nat) : Descriptor := ((ctrlTable Config.cfg0)[cid]?).getD (globalCtrl .enable 0 0 0)

theorem test_witness_CtrlGetAnswersTheField : Live st0 ∧ cfgWf st0.cfg = true ∧ st0.eng.ctrl = ctrlTable st0.cfg ∧
    26 < (27 : BitVec 5).toNat ∧ (ctrlTable st0.cfg)[26]? = some (descAt 26) ∧ isPresent st0.cfg (descAt 26) = false ∧
    (ctrlTable st0.cfg)[24]? = some (descAt 24) ∧ isPresent st0.cfg (descAt 24) = true ∧
    isGlobal (descAt 24) = false ∧ isGlobal (descAt 0) = true ∧ st0.cfg.p ≤ (3 : BitVec 5).toNat ∧
    (2 : BitVec 5).toNat < st0.cfg.p := by decide +kernel

theorem test_witness_CtrlSetReplacesTheField : Live (val 3 st0) ∧ cfgWf st0.cfg = true ∧
    (val 3 st0).eng.ctrl = ctrlTable st0.cfg ∧ (val 3 st0).a.value = some 3 ∧ st0.a.value = none ∧
    (ctrlTable st0.cfg)[12]? = some (descAt 12) ∧ isPresent st0.cfg (descAt 12) = true ∧
    (3 : Word).toNat < 2 ^ (descAt 12).width ∧ 2 ^ (descAt 12).width ≤ (4 : Word).toNat ∧
    isGlobal (descAt 12) = false ∧ st0.cfg.p ≤ (3 : BitVec 5).toNat ∧ (2 : BitVec 5).toNat < st0.cfg.p ∧
    26 < (27 : BitVec 5).toNat ∧ (ctrlTable st0.cfg)[26]? = some (descAt 26) ∧
    isPresent st0.cfg (descAt 26) = false := by decide +kernel

theorem test_witness_RateLimitWritesTheLimit : Ready (val 255999 st0) ∧ cfgWf st0.cfg = true ∧
    (val 255999 st0).eng.ctrl = ctrlTable st0.cfg ∧ (val 255999 st0).a.value = some 255999 ∧
    (255999 : Word).toNat / 1000 ≤ 255 ∧ 255 < (256000 : Word).toNat / 1000 := by decide +kernel

theorem test_witness_StartInitialises : Ready (stOf cfgHw) ∧ (stOf cfgHw).eng.agingMode = .hw ∧ Ready (stOf cfgSw) := by
  decide

theorem test_witness_StopStops : Ready stPending ∧ stPending.eng.agingMode = .sw ∧ Ready st0 := by decide

theorem test_witness_NothingAgesAfterStop : Inv stPending ∧ Live stPending ∧ stPending.eng.agingMode ≠ .off ∧
    ∃ t, exec .stop stPending = .next t :=
  ⟨by decide +kernel, by decide, by decide, _, rfl⟩

theorem test_witness_StatusQueryAnswersStatus : Live st0 ∧ st0.cfg.hasStatusReg = false ∧ Live (stOf cfgStatus) ∧
    (stOf cfgStatus).cfg.hasStatusReg = true := by decide

-- R348: not ended with a tick pending, with an owner's move to come, or faulted; agent steps to come do not matter.
theorem test_run_ends : runEnded stOn = true ∧ runEnded stPending = false ∧
    runEnded { stOn with agenda := [.agent (.fwdTouch 0)] } = true ∧
    runEnded { stOn with agenda := [.agent (.fwdTouch 0), .arg (.vid 5)] } = false ∧
    runEnded { stOn with faulted := true } = false := by decide

-- R348, R300: before the run ends the pending tick writes CONTROL with AGEOUT = 1, which demotes the TOUCHED entry
theorem test_pending_tick_writes_before_the_end :
    let t := after (step (tab [(1, 0x00000008D0000066778899AA)] stPending))
    t.eng.swPending = none ∧ runEnded t = true ∧ Table.entry t.table 1 = 0x0000000850000066778899AA := by decide +kernel

/-- A request for Cfg0's variant. -/
def req0 : CreateRequest :=
  { p := 3, fRef := 250000000, ageoutS := 0, variants := [("id", { entries := 4, policers := 0, layout := .classic })] }

theorem test_witness_CreateInstallsOrFails : State.reset.eng.created = false ∧ req0.variants.lookup "x" = none ∧
    req0.variants.lookup "id" = some { entries := 4, policers := 0, layout := .classic } ∧
    entryCount req0 { entries := 4, policers := 0, layout := .classic } 0 = some 4 ∧
    entryCount req0 { entries := 0, policers := 0, layout := .classic } 0 = none ∧
    policerCountMissing req0 { entries := 4, policers := 0, layout := .classic } 0 = false ∧
    policerCountMissing req0 { entries := 4, policers := 0, layout := .classic, hasStatusReg := true } 0 = true ∧
    cfgWf (createCfg req0 { entries := 4, policers := 0, layout := .classic } 4) = true ∧
    State.reset.tableLost = false ∧ (powerLoss State.reset).tableLost = true ∧
    (powerLoss State.reset).eng.created = false := by decide +kernel

theorem test_witness_SoftwareTickPulsesAgeout : stSw.eng.created = true ∧ stSw.eng.agingMode = .sw ∧
    stSw.eng.swArmed = true ∧ stSw.eng.swPending = none ∧ stPending.eng.swPending.isSome = true ∧
    st0.eng.agingMode ≠ .sw := by decide

theorem test_witness_HardwareTickCountsDown : (stOf cfgHw).cfg.hasHwAutoaging = true ∧
    (stOf cfgHw).eng.created = true ∧ (stOf cfgHw).regs.period = 0 ∧
    ({ st0.regs with period := 3 } : Regs).period ≠ 0 := by decide

theorem test_witness_AgingPassAgesAgeableEntries : ageable 0x00000008D0000066778899AA = true ∧
    ageable 0x000000041000001122334455 = false ∧ st0.cfg.agingPass = .exact := by decide +kernel

theorem test_witness_ForwardingPathLearnsTouchesAndMoves : cfgWf stOn.cfg = true ∧
    AgentStep.fwdTouch 0 ≠ .tickRead ∧ AgentStep.fwdTouch 0 ≠ .tickWrite ∧ AgentStep.fwdTouch 0 ≠ .hwTick ∧
    stOn.eng.created = true ∧ stOn.regs.control.getLsbD 31 = true ∧ 3 < stOn.cfg.n ∧ 2 < stOn.cfg.p ∧
    (0x001122334455 : Mac).getLsbD 40 = false ∧ isFree 0 = true ∧ ageable 0x0000000450000066778899AA = true ∧
    ucastType 0x0000000450000066778899AA = .untouched ∧ (0x0000000450000066778899AA : Image).getLsbD 64 = false ∧
    st0.regs.control.getLsbD 31 = false := by decide +kernel

theorem test_witness_PowerLossKeepsTheOwnersState : ({ st0 with agenda := [.powerLoss] } : State).faulted = false ∧
    ({ st0 with agenda := [.powerLoss] } : State).agenda = .powerLoss :: [] ∧ Table.wf st0.table = true ∧
    st0.eng.started = false ∧ st0.eng.created = true ∧ stOn.eng.started = true ∧
    State.reset.faulted = false ∧ State.reset.eng.started = false ∧ State.reset.eng.created = false := by decide

theorem test_witness_EveryStepKeepsTheInvariant : Inv stPending ∧
    ∃ t, step { stPending with agenda := [.agent .tickWrite] } = .next t := ⟨by decide +kernel, _, rfl⟩

theorem test_witness_StickyMarksAreNeverCleared : ({ st0 with refused := true } : State).refused = true ∧
    ∃ t, step { st0 with refused := true } = .next t := ⟨rfl, _, rfl⟩

theorem test_witness_InstructionsKeepTheOwnersRegisters : (∃ t, exec .matchFree st0 = .next t) ∧
    ({ st0 with agenda := [.arg (.vid 5)] } : State).agenda = .arg (.vid 5) :: [] ∧ st0.faulted = false ∧
    ∃ t, step { st0 with agenda := [.arg (.vid 5)] } = .next t := ⟨⟨_, rfl⟩, rfl, rfl, _, rfl⟩

theorem test_arg_write_is_the_owners_register :
    (after (step { st0 with agenda := [.arg (.vid 5)] })).a.vid = some 5 := rfl

theorem test_witness_IsolatedAgentsAreInert : Isolated st0 ∧ Quiet st0 ∧ Isolated (stOf cfgHw) ∧ Isolated (stOf cfgSw) := by
  decide

theorem test_witness_IsolatedCommandsIgnoreTheSchedule : Inv st0 ∧ Live st0 ∧ Isolated st0 ∧ Quiet st0 ∧
    ∃ t, exec .matchFree { st0 with sched := [] } = .next t :=
  ⟨by decide +kernel, by decide, by decide, by decide, _, rfl⟩

theorem test_witness_SoftwareTickUndoesTheOwnersWrite : Inv (val 0 stSw) ∧ Ready (val 0 stSw) ∧
    (val 0 stSw).eng.agingMode = .sw ∧ (val 0 stSw).eng.swArmed = true ∧ (val 0 stSw).eng.swPending = none ∧
    (val 0 stSw).regs.control.getLsbD 31 = true ∧ (val 0 stSw).a.value = some 0 := by decide +kernel

end Sys2Proof.Tests
end

section
/-! SUPPORT. What the micro-steps of commands and the steps of the other agents keep (R66, R341): the rest of the state
(`durable`) and the part of the invariant that they need (`Sound`), as one relation that composes (`Kept`). -/

namespace Sys2Proof.Machine

/-! ### The relation -/

/-- The state with everything blanked that a micro-step of a command or a step of an agent may change: the registers, the
table and its window, age_cnt, the untag bitmap, the pending tick, the results but for STATUS, the free values, the
schedule and the bus. -/
def durable (s : State) : State :=
  { s with
    regs := Regs.reset, table := [], tblBuf := 0, ageCnt := 0
    eng := { s.eng with untagVid := 0, swPending := none }
    res := { Results.reset with status := s.res.status }
    drawCount := 0, sched := [], busData := none }

/-- The part of the invariant that holds between the micro-steps of a command of a created engine. -/
structure Sound (s : State) : Prop where
  cfg : cfgWf s.cfg = true
  ctrl : s.eng.ctrl = ctrlTable s.cfg
  wf : Table.wf s.table = true
  below : Table.below s.cfg.n s.table = true
  pending : s.eng.swPending.isSome = true → s.eng.swArmed = true

/-- From `s` to `t` only what `durable` blanks has changed, and `Sound` has been kept. -/
structure Kept (s t : State) : Prop where
  frame : durable t = durable s
  sound : Sound s → Sound t

namespace Kept

variable {s t u : State}

theorem refl (s : State) : Kept s s := ⟨rfl, id⟩

theorem trans (h : Kept s t) (h' : Kept t u) : Kept s u :=
  ⟨h'.frame.trans h.frame, fun hs => h'.sound (h.sound hs)⟩

theorem faulted (h : Kept s t) : t.faulted = s.faulted := congrArg (·.faulted) h.frame
theorem refused (h : Kept s t) : t.refused = s.refused := congrArg (·.refused) h.frame
theorem a (h : Kept s t) : t.a = s.a := congrArg (·.a) h.frame
theorem chip (h : Kept s t) : t.chip = s.chip := congrArg (·.chip) h.frame
theorem cfg (h : Kept s t) : t.cfg = s.cfg := congrArg (·.cfg) h.frame
theorem tableLost (h : Kept s t) : t.tableLost = s.tableLost := congrArg (·.tableLost) h.frame
theorem agenda (h : Kept s t) : t.agenda = s.agenda := congrArg (·.agenda) h.frame
theorem lastCreate (h : Kept s t) : t.lastCreate = s.lastCreate := congrArg (·.lastCreate) h.frame
theorem status (h : Kept s t) : t.res.status = s.res.status := congrArg (·.res.status) h.frame
theorem created (h : Kept s t) : t.eng.created = s.eng.created := congrArg (·.eng.created) h.frame
theorem started (h : Kept s t) : t.eng.started = s.eng.started := congrArg (·.eng.started) h.frame
theorem agingMode (h : Kept s t) : t.eng.agingMode = s.eng.agingMode := congrArg (·.eng.agingMode) h.frame
theorem swArmed (h : Kept s t) : t.eng.swArmed = s.eng.swArmed := congrArg (·.eng.swArmed) h.frame
theorem ctrl (h : Kept s t) : t.eng.ctrl = s.eng.ctrl := congrArg (·.eng.ctrl) h.frame
theorem contractViolation (h : Kept s t) : t.eng.contractViolation = s.eng.contractViolation :=
  congrArg (·.eng.contractViolation) h.frame

/-- A change of what `durable` blanks keeps `Sound` where it keeps the table's form and the tie of tick and timer. -/
theorem of_durable (hd : durable t = durable s)
    (hw : Table.wf s.table = true → Table.wf t.table = true)
    (hb : Table.below s.cfg.n s.table = true → Table.below s.cfg.n t.table = true)
    (hp : (s.eng.swPending.isSome = true → s.eng.swArmed = true) →
      t.eng.swPending.isSome = true → t.eng.swArmed = true) : Kept s t where
  frame := hd
  sound hs := by
    have hcfg : t.cfg = s.cfg := congrArg (·.cfg) hd
    have hctrl : t.eng.ctrl = s.eng.ctrl := congrArg (·.eng.ctrl) hd
    exact ⟨hcfg ▸ hs.cfg, by rw [hctrl, hcfg, hs.ctrl], hw hs.wf, hcfg ▸ hb hs.below, hp hs.pending⟩

/-- A change of what `durable` blanks that leaves the table and the pending tick. -/
theorem of_same_table (hd : durable t = durable s) (ht : t.table = s.table)
    (hp : t.eng.swPending = s.eng.swPending) : Kept s t :=
  have harm : t.eng.swArmed = s.eng.swArmed := congrArg (·.eng.swArmed) hd
  of_durable hd (ht ▸ id) (ht ▸ id) (by rw [hp, harm]; exact id)

end Kept

/-! ### Agent steps -/

theorem fwdEnabled_index {i : Nat} {s : State} (h : fwdEnabled i s = true) : i < s.cfg.n := by
  simp only [fwdEnabled, Bool.and_eq_true, decide_eq_true_eq] at h
  exact h.2

/-- An agent step lists no index at or above N (R304, R345). -/
theorem agentStep_below (x : AgentStep) (s : State) (h : Table.below s.cfg.n s.table = true) :
    Table.below s.cfg.n (agentStep x s).table = true := by
  have hset (i : Nat) (e : Image) (hi : fwdEnabled i s = true) :
      Table.below s.cfg.n (setEntry i e s).table = true := Table.below_store _ _ _ _ (fwdEnabled_index hi) h
  cases x with
  | tickRead =>
    simp only [agentStep, tickRead]
    split
    · obtain ⟨k, hk⟩ := readReg_frame .control s
      simp only [hk, h]
    · exact h
  | tickWrite =>
    simp only [agentStep, tickWrite]
    split
    · split
      · exact h
      · exact writeControl_below _ s h
    · exact h
  | hwTick =>
    simp only [agentStep, hwTick]
    split
    · split
      · exact h
      · exact agingPass_below s h
    · exact h
  | fwdLearn i u =>
    simp only [agentStep, fwdLearn, Bool.and_eq_true]
    split
    next hen => exact hset i _ hen.1.1
    next => exact h
  | fwdTouch i =>
    simp only [agentStep, fwdTouch, Bool.and_eq_true]
    split
    next hen => exact hset i _ hen.1.1
    next => exact h
  | fwdMove i p =>
    simp only [agentStep, fwdMove, Bool.and_eq_true]
    split
    next hen => exact hset i _ hen.1.1.1
    next => exact h

/-- A tick is read only by an armed timer (R300), and no other step makes one pending. -/
theorem agentStep_pending (x : AgentStep) (s : State)
    (h : s.eng.swPending.isSome = true → s.eng.swArmed = true) :
    (agentStep x s).eng.swPending.isSome = true → (agentStep x s).eng.swArmed = true := by
  cases x with
  | tickRead =>
    simp only [agentStep, tickRead]
    split
    next hen =>
      obtain ⟨k, hk⟩ := readReg_frame .control s
      simp only [tickReadEnabled, Bool.and_eq_true] at hen
      simp only [hk, hen.1.2, implies_true]
    next => exact h
  | tickWrite =>
    simp only [agentStep, tickWrite]
    split
    · split
      · exact h
      · simp
    · exact h
  | hwTick =>
    obtain ⟨t, k, hpass⟩ := agingPass_frame s
    simp only [agentStep, hwTick, hpass]
    split
    · split <;> exact h
    · exact h
  | fwdLearn i u => simp only [agentStep, fwdLearn]; split <;> exact h
  | fwdTouch i => simp only [agentStep, fwdTouch]; split <;> exact h
  | fwdMove i p => simp only [agentStep, fwdMove]; split <;> exact h

theorem agentStep_kept (x : AgentStep) (s : State) : Kept s (agentStep x s) := by
  obtain ⟨c, t, g, p, k, h⟩ := agentStep_frame x s
  exact .of_durable (by rw [h]; rfl) (agentStep_wf x s) (agentStep_below x s) (agentStep_pending x s)

theorem agentSteps_kept (xs : List AgentStep) (s : State) : Kept s (agentSteps xs s) := by
  induction xs generalizing s with
  | nil => exact .refl s
  | cons x xs ih => exact (agentStep_kept x s).trans (ih _)

/-- R299: no agent steps before CREATE, where no tick is pending. -/
theorem agentStep_not_created (x : AgentStep) (s : State) (h : s.eng.created = false) : agentStep x s = s := by
  cases x with
  | tickRead => simp [agentStep, tickRead, tickReadEnabled, swTimerPresent, h]
  | tickWrite => simp [agentStep, tickWrite, swTimerPresent, h]
  | hwTick => simp [agentStep, hwTick, hwTickEnabled, h]
  | fwdLearn i u => simp [agentStep, fwdLearn, fwdEnabled, h]
  | fwdTouch i => simp [agentStep, fwdTouch, fwdEnabled, h]
  | fwdMove i p => simp [agentStep, fwdMove, fwdEnabled, h]

theorem interleave_kept (s : State) : Kept s (interleave s) := by
  unfold interleave
  split
  · exact .refl s
  next now later _ =>
    have hsched : Kept s { s with sched := later } := .of_same_table rfl rfl rfl
    exact hsched.trans (agentSteps_kept now _)

/-! ### Register accesses -/

theorem readReg_kept (r : Reg) (s : State) : Kept s (readReg r s).2 := by
  obtain ⟨k, h⟩ := readReg_frame r s
  rw [h]
  exact .of_same_table rfl rfl rfl

theorem setEntry_kept {i : Nat} (e : Image) (s : State) (hi : i < s.cfg.n) : Kept s (setEntry i e s) :=
  .of_durable rfl (Table.wf_store _ i e) (Table.below_store _ _ i e hi) id

theorem writeControl_kept (v : Word) (s : State) : Kept s (writeControl v s) := by
  obtain ⟨t, k, h⟩ := writeControl_frame v s
  exact .of_durable (by rw [h]; rfl) (writeControl_wf v s) (writeControl_below v s) (by rw [h]; exact id)

theorem writeTableControl_durable (v : Word) (s : State) : durable (writeTableControl v s) = durable s := by
  unfold writeTableControl
  split <;> rfl

theorem writeFault_eq_none {r : Reg} (v : Word) (s : State) (h : r ≠ .tableControl) : writeFault r v s = none := by
  cases r with
  | tableControl => exact absurd rfl h
  | _ => rfl

/-- A register write that does not fault (R122) keeps what a micro-step keeps. -/
theorem writeReg_kept {r : Reg} {v : Word} {s : State} (h : writeFault r v s = none) : Kept s (writeReg r v s) := by
  cases r with
  | control => exact writeControl_kept v s
  | tableControl =>
    have hi : entryPointer v < s.cfg.n := by simpa [writeFault] using h
    simp only [writeReg, writeTableControl]
    split
    · exact setEntry_kept _ s hi
    · exact .of_same_table rfl rfl rfl
  | idver | status => exact .refl s
  | prescale | agingTimer | unknownVlan | tableWord2 | tableWord1 | tableWord0 | portctl | unkMember | unkUnreg
  | unkReg | unkUntag | maskMux | threadDef => exact .of_same_table rfl rfl rfl

/-- Whatever a register write stores, it stays within what `durable` blanks. -/
theorem writeReg_durable (r : Reg) (v : Word) (s : State) : durable (writeReg r v s) = durable s := by
  by_cases h : r = .tableControl
  · subst h
    exact writeTableControl_durable v s
  · exact (writeReg_kept (writeFault_eq_none v _ h)).frame

theorem memRead_kept (r : Reg) (s : State) : Kept s (memRead r s).2 :=
  (interleave_kept s).trans (readReg_kept r _)

theorem memWrite_kept {r : Reg} (v : Word) (s : State) (h : r ≠ .tableControl) : Kept s (memWrite r v s) :=
  (interleave_kept s).trans (writeReg_kept (writeFault_eq_none v _ h))

theorem memWrite_durable (r : Reg) (v : Word) (s : State) : durable (memWrite r v s) = durable s :=
  (writeReg_durable r v _).trans (interleave_kept s).frame

end Sys2Proof.Machine
end

section
/-! SUPPORT. What the shared helpers of the command bodies keep: scans, the allocation order, the loops, the VLAN field
accessors where the layout allows the field (R33, R34), and the control decoder. -/

namespace Sys2Proof.Machine

/-! ### The table port and the scans -/

/-- The index, if there is one, is below `n`. -/
def IndexBelow (n : Nat) (i : Option Nat) : Prop := ∀ j ∈ i, j < n

theorem indexBelow_none (n : Nat) : IndexBelow n none := fun _ hj => nomatch hj

theorem indexBelow_some {n i : Nat} : IndexBelow n (some i) ↔ i < n := by simp [IndexBelow]

theorem tblRead_kept (i : Nat) (s : State) : Kept s (tblRead i s).2 :=
  (interleave_kept s).trans (.of_same_table rfl rfl rfl)

theorem commitEntry_kept {i : Nat} (e : Image) (s : State) (hi : i < s.cfg.n) : Kept s (commitEntry i e s) :=
  have hbuf : Kept s { s with tblBuf := e } := .of_same_table rfl rfl rfl
  hbuf.trans (setEntry_kept e _ hi)

theorem tblWrite_kept {i : Nat} (e : Image) (s : State) (hi : i < s.cfg.n) : Kept s (tblWrite i e s) :=
  have h := interleave_kept s
  h.trans (commitEntry_kept e _ (h.cfg ▸ hi))

theorem drawBool_kept (s : State) : Kept s (drawBool s).2 := .of_same_table rfl rfl rfl

theorem maybeRewrite_kept {i : Nat} (e : Image) (s : State) (hi : i < s.cfg.n) : Kept s (maybeRewrite i e s) := by
  have h : Kept s (interleave (drawBool s).2) := (drawBool_kept s).trans (interleave_kept _)
  simp only [maybeRewrite]
  generalize interleave (drawBool s).2 = u at h ⊢
  split
  · exact h
  · split
    · exact h.trans (commitEntry_kept e _ (h.cfg ▸ hi))
    · exact h

theorem forEntries_kept {body : Nat → State → State} (n i : Nat) (s : State)
    (hbody : ∀ j u, j < u.cfg.n → Kept u (body j u)) (hn : i + n ≤ s.cfg.n) : Kept s (forEntries body n i s) := by
  induction n generalizing i s with
  | zero => exact .refl s
  | succ n ih =>
    have h := hbody i s (by omega)
    exact h.trans (ih (i + 1) _ (by rw [h.cfg]; omega))

theorem scan_kept (pred : Image → Bool) (s : State) : Kept s (scan pred s).2 := by
  have loop (n i : Nat) (u : State) : Kept u (scanFrom pred n i u).2 := by
    induction n generalizing i u with
    | zero => exact .refl u
    | succ n ih =>
      simp only [scanFrom]
      split
      · exact tblRead_kept i u
      · exact (tblRead_kept i u).trans (ih _ _)
  exact loop _ _ s

theorem scan_index (pred : Image → Bool) (s : State) : IndexBelow s.cfg.n (indexOf (scan pred s).1) := by
  intro j hj
  obtain ⟨⟨i, e⟩, hfound, rfl⟩ : ∃ x, (scan pred s).1 = some x ∧ x.1 = j := by simpa [indexOf] using hj
  have hrange := scanFrom_found pred s.cfg.n 0 s i e hfound
  omega

theorem alloc_kept (found : Option Nat) (s : State) : Kept s (alloc found s).2 := by
  cases found with
  | some i => exact .refl s
  | none =>
    have hfree := scan_kept isFree s
    simp only [alloc, matchFree]
    rcases hf : scan isFree s with ⟨_ | ⟨i, e⟩, u⟩ <;> rw [hf] at hfree
    · have hage := scan_kept ageable u
      simp only [findAgeable]
      rcases ha : scan ageable u with ⟨_ | ⟨i, e⟩, v⟩ <;> rw [ha] at hage <;> exact hfree.trans hage
    · exact hfree

theorem alloc_index {found : Option Nat} {s : State} (h : IndexBelow s.cfg.n found) :
    IndexBelow s.cfg.n (alloc found s).1 := by
  cases found with
  | some i => exact h
  | none =>
    have hfree := scan_index isFree s
    have hcfg := (scan_kept isFree s).cfg
    simp only [alloc, matchFree]
    rcases hf : scan isFree s with ⟨_ | ⟨i, e⟩, u⟩ <;> rw [hf] at hfree hcfg
    · have hage := scan_index ageable u
      simp only [findAgeable]
      rcases ha : scan ageable u with ⟨_ | ⟨i, e⟩, v⟩ <;> rw [ha, hcfg] at hage
      · exact indexBelow_none _
      · exact hage
    · exact hfree

theorem existingImage_kept (found : Option Nat) (s : State) : Kept s (existingImage found s).2 := by
  cases found with
  | none => exact .refl s
  | some i => exact tblRead_kept i s

theorem dumpFrom_kept (n i : Nat) (s : State) : Kept s (dumpFrom n i s).2 := by
  induction n generalizing i s with
  | zero => exact .refl s
  | succ n ih => exact (tblRead_kept i s).trans (ih (i + 1) _)

theorem restoreFrom_kept (ws : List Word) (i : Nat) (s : State) (h : 3 * i + ws.length ≤ 3 * s.cfg.n) :
    Kept s (restoreFrom ws i s) := by
  induction ws, i, s using restoreFrom.induct with
  | case1 w2 w1 w0 ws i s ih =>
    simp only [List.length_cons] at h
    have hw := tblWrite_kept (i := i) (w2 ++ w1 ++ w0) s (by omega)
    exact hw.trans (ih (by rw [hw.cfg]; omega))
  | case2 => exact .refl _
  | case3 => exact .refl _
  | case4 => exact .refl _

theorem flushEntry_kept (filter : Option Vid) (mask : Word) (i : Nat) (s : State) (hi : i < s.cfg.n) :
    Kept s (flushEntry filter mask i s) := by
  have h := tblRead_kept i s
  have hi' : i < (tblRead i s).2.cfg.n := h.cfg ▸ hi
  unfold flushEntry
  dsimp only
  split
  · exact h
  · split
    · exact h
    · split
      · exact h.trans (maybeRewrite_kept _ _ hi')
      · split
        · exact h.trans (tblWrite_kept _ _ hi')
        · split
          · exact h.trans (maybeRewrite_kept _ _ hi')
          · exact h.trans (tblWrite_kept _ _ hi')

/-! ### VLAN fields -/

theorem vlanPlace_memberList (c : Cfg) : (vlanPlace c .memberList).isSome = true := by
  cases hl : c.layout <;> simp [vlanPlace, vlanDesc, hl]

theorem vlanPlace_forceUntagMsk (c : Cfg) : (vlanPlace c .forceUntagMsk).isSome = true := by
  cases hl : c.layout <;> simp [vlanPlace, vlanDesc, hl]

/-- The layout with indices into the mask bank is the one whose flood masks are INDIRECT (R33, R232). -/
theorem vlanPlace_idx {c : Cfg} (h : indirect c = true) :
    (vlanPlace c .regMcastIdx).isSome = true ∧ (vlanPlace c .unregMcastIdx).isSome = true := by
  have hl : c.layout = .nu := by simpa [indirect] using h
  simp [vlanPlace, vlanDesc, hl]

theorem vlanPlace_msk {c : Cfg} (h : ¬ indirect c = true) :
    (vlanPlace c .regMcastMsk).isSome = true ∧ (vlanPlace c .unregMcastMsk).isSome = true := by
  cases hl : c.layout <;> simp [indirect, vlanPlace, vlanDesc, hl] at h ⊢

/-- R158: a get of an allowed field changes nothing. -/
theorem vlanGet_allowed {id : VlanField} {s : State} (e : Image) (h : (vlanPlace s.cfg id).isSome = true) :
    (vlanGet e id s).2 = s := by
  obtain ⟨d, hd⟩ := Option.isSome_iff_exists.1 h
  simp [vlanGet, hd]

/-- R158: a set of an allowed field changes the image only. -/
theorem vlanSet_allowed {id : VlanField} {s : State} (e : Image) (v : Word)
    (h : (vlanPlace s.cfg id).isSome = true) : (vlanSet e id v s).2 = s := by
  obtain ⟨d, hd⟩ := Option.isSome_iff_exists.1 h
  simp [vlanSet, hd]

theorem setUntag_kept (e : Image) (vid : Vid) (u : Word) (s : State) : Kept s (setUntag e vid u s).2 := by
  simp only [setUntag, vlanSet_allowed e u (vlanPlace_forceUntagMsk s.cfg)]
  exact .of_same_table rfl rfl rfl

theorem readMux_kept (k : Nat) (s : State) : Kept s (readMux k s).2 := memRead_kept (.maskMux k) s

theorem writeMux_kept (k : Nat) (v : Word) (s : State) : Kept s (memWrite (.maskMux k) v s) :=
  memWrite_kept v s (by simp)

theorem getFlood_kept (e : Image) (s : State) : Kept s (getFlood e s).2 := by
  unfold getFlood
  split
  next hind =>
    obtain ⟨hreg, hunreg⟩ := vlanPlace_idx hind
    have h := readMux_kept (vlanGet e .regMcastIdx s).1.toNat s
    simp only [vlanGet_allowed e hreg, vlanGet_allowed e (h.cfg ▸ hunreg)]
    exact h.trans (readMux_kept _ _)
  next hinl =>
    obtain ⟨hreg, hunreg⟩ := vlanPlace_msk hinl
    simp only [vlanGet_allowed e hreg, vlanGet_allowed e hunreg]
    exact .refl s

theorem setFlood_kept (e : Image) (reg unreg : Word) (s : State) : Kept s (setFlood e reg unreg s).2 := by
  unfold setFlood
  split
  next hind =>
    obtain ⟨hreg, hunreg⟩ := vlanPlace_idx hind
    have h := writeMux_kept (vlanGet e .regMcastIdx s).1.toNat reg s
    simp only [vlanGet_allowed e hreg, vlanGet_allowed e (h.cfg ▸ hunreg)]
    exact h.trans (writeMux_kept _ _ _)
  next hinl =>
    obtain ⟨hreg, hunreg⟩ := vlanPlace_msk hinl
    simp only [vlanSet_allowed e reg hreg, vlanSet_allowed _ unreg hunreg]
    exact .refl s

theorem freeVlan_kept (e : Image) (vid : Vid) (s : State) : Kept s (freeVlan e vid s).2 := setUntag_kept e vid 0 s

theorem delModify_kept (e : Image) (vid : Vid) (pm : Word) (s : State) : Kept s (delModify e vid pm s).2 := by
  simp only [delModify, vlanGet_allowed e (vlanPlace_memberList s.cfg)]
  split
  · exact freeVlan_kept e vid s
  · simp only [vlanGet_allowed e (vlanPlace_forceUntagMsk s.cfg), vlanSet_allowed _ _ (vlanPlace_memberList _)]
    exact (getFlood_kept e s).trans ((setUntag_kept e vid _ _).trans (setFlood_kept _ _ _ _))

theorem buildVlan_kept (e : Image) (vid : Vid) (m : VlanMasks) (s : State) : Kept s (buildVlan e vid m s).2 := by
  have huntag := setUntag_kept (setVid (setType e .vlan) vid) vid m.untag s
  unfold buildVlan
  dsimp only
  split
  next hind =>
    obtain ⟨-, hunreg⟩ := vlanPlace_idx hind
    simp only [vlanSet_allowed _ _ hunreg, vlanSet_allowed _ _ (vlanPlace_memberList _)]
    exact huntag.trans (setFlood_kept _ _ _ _)
  next =>
    simp only [vlanSet_allowed _ _ (vlanPlace_memberList _)]
    exact huntag.trans (setFlood_kept _ _ _ _)

theorem existingMasks_kept (found : Option Nat) (s : State) : Kept s (existingMasks found s).2 := by
  cases found with
  | none => exact .refl s
  | some i =>
    simp only [existingMasks, vlanGet_allowed _ (vlanPlace_memberList _),
      vlanGet_allowed _ (vlanPlace_forceUntagMsk _)]
    exact (tblRead_kept i s).trans (getFlood_kept _ _)

theorem delVlanImage_kept (force : Bool) (e : Image) (vid : Vid) (mask : Word) (s : State) :
    Kept s (delVlanImage force e vid mask s).2 := by
  simp only [delVlanImage, vlanGet_allowed e (vlanPlace_memberList s.cfg)]
  split
  · exact freeVlan_kept e vid s
  · exact delModify_kept e vid _ s

theorem toggleUnreg_kept (en : Bool) (m : Word) {i : Nat} (e : Image) (s : State) (hi : i < s.cfg.n) :
    Kept s (toggleUnreg en m i e s) := by
  unfold toggleUnreg
  split
  next hind =>
    simp only [vlanGet_allowed e (vlanPlace_idx hind).2]
    have h (k : Nat) (v : Word) : Kept s (memWrite (.maskMux k) v (readMux k s).2) :=
      (readMux_kept k s).trans (writeMux_kept k v _)
    exact (h _ _).trans (maybeRewrite_kept e _ ((h _ _).cfg ▸ hi))
  next hinl =>
    obtain ⟨-, hunreg⟩ := vlanPlace_msk hinl
    simp only [vlanGet_allowed e hunreg, vlanSet_allowed e _ hunreg]
    exact tblWrite_kept _ s hi

theorem unregEntry_kept (en : Bool) (mask : Word) (i : Nat) (s : State) (hi : i < s.cfg.n) :
    Kept s (unregEntry en mask i s) := by
  have h := tblRead_kept i s
  unfold unregEntry
  dsimp only
  split
  · exact h.trans (toggleUnreg_kept en mask _ _ (h.cfg ▸ hi))
  · exact h

theorem allmultiEntry_kept (en any : Bool) (port : BitVec 5) (i : Nat) (s : State) (hi : i < s.cfg.n) :
    Kept s (allmultiEntry en any port i s) := by
  have h := tblRead_kept i s
  have htoggle := h.trans (toggleUnreg_kept en hostBit (tblRead i s).1 _ (h.cfg ▸ hi))
  unfold allmultiEntry
  dsimp only
  split
  · split
    · exact htoggle
    · simp only [vlanGet_allowed _ (vlanPlace_memberList _)]
      split
      · exact htoggle
      · exact h
  · exact h

end Sys2Proof.Machine
end

section
/-! SUPPORT. A control never names TABLE_CONTROL (R270, R273): under a well-formed configuration the offset of every
control in the descriptor table is that of another register, so CTRL_SET writes no table entry. -/

namespace Sys2Proof.Machine

/-! ### The register map -/

theorem offsetsApart_nodup {os : List Nat} (h : offsetsApart os = true) : os.Nodup := by
  induction os with
  | nil => exact List.nodup_nil
  | cons o os ih =>
    simp only [offsetsApart, Bool.and_eq_true, List.all_eq_true, Bool.not_eq_true', beq_eq_false_iff_ne] at h
    exact List.nodup_cons.2 ⟨fun ho => h.1 o ho rfl, ih h.2⟩

theorem mem_regMap_of_regAt {c : Cfg} {off : Nat} {r : Reg} (h : regAt c off = some r) : (off, r) ∈ regMap c := by
  obtain ⟨l₁, l₂, hsplit, -⟩ := List.lookup_eq_some_iff.1 h
  simp [hsplit]

/-- In a well-formed configuration every offset names one register (log 10). -/
theorem regMap_unique {c : Cfg} {off : Nat} {r r' : Reg} (hc : cfgWf c = true) (h : (off, r) ∈ regMap c)
    (h' : (off, r') ∈ regMap c) : r = r' := by
  simp only [cfgWf, offsetsOk, Bool.and_eq_true] at hc
  have hnodup := offsetsApart_nodup hc.2.1
  exact congrArg Prod.snd (List.inj_on_of_nodup_map hnodup h h' rfl)

/-! ### Where the controls lie -/

/-- The offset is that of a register of the configuration other than TABLE_CONTROL. -/
def NamesOther (c : Cfg) (off : Nat) : Prop := ∃ r, (off, r) ∈ regMap c ∧ r ≠ .tableControl

/-- The control has one register of its own or one of the PORTCTL bank (R270). -/
def CtrlApart (c : Cfg) (d : Descriptor) : Prop :=
  (d.portStride = 0 ∧ NamesOther c d.base) ∨ (d.portStride = 4 ∧ d.base = c.regOff.portctl)

theorem namesOther_control (c : Cfg) : NamesOther c c.regOff.control :=
  ⟨.control, by simp [regMap, regMapBase], by simp⟩

theorem namesOther_portctl {c : Cfg} {p : Nat} (h : p < c.p) : NamesOther c (c.regOff.portctl + 4 * p) :=
  ⟨.portctl p, by simp [regMap, regMapBanks, h], by simp⟩

theorem namesOther_threadDef {c : Cfg} (h : c.hasThreadDef = true) : NamesOther c c.regOff.threadDef :=
  ⟨.threadDef, by simp [regMap, regMapFlags, h], by simp⟩

theorem globalCtrl_apart {c : Cfg} {name : Control} {base shift width : Nat} (h : NamesOther c base) :
    CtrlApart c (globalCtrl name base shift width) := .inl ⟨rfl, h⟩

theorem portCtrl_apart (c : Cfg) (name : Control) (shift width : Nat) : CtrlApart c (portCtrl c name shift width) :=
  .inr ⟨rfl, rfl⟩

theorem threadCtrl_apart {c : Cfg} {name : Control} {shift width : Nat}
    (h : isPresent c (threadCtrl c name shift width) = true) : CtrlApart c (threadCtrl c name shift width) :=
  .inl ⟨rfl, namesOther_threadDef h⟩

theorem unknownVlanCtrls_apart (c : Cfg) : ∀ d ∈ unknownVlanCtrls c, CtrlApart c d := by
  have hreg {off : Nat} {r : Reg} (h : (off, r) ∈ regMapUnknown c) (hr : r ≠ .tableControl) : NamesOther c off :=
    ⟨r, by simp [regMap, h], hr⟩
  by_cases hnu : nuControls c = true
  · simp only [unknownVlanCtrls, hnu, if_true, List.forall_mem_cons]
    refine ⟨globalCtrl_apart (hreg (r := .unkMember) ?_ ?_), globalCtrl_apart (hreg (r := .unkUnreg) ?_ ?_),
      globalCtrl_apart (hreg (r := .unkReg) ?_ ?_), globalCtrl_apart (hreg (r := .unkUntag) ?_ ?_),
      List.forall_mem_nil _⟩ <;> simp [regMapUnknown, hnu]
  · have hunk : NamesOther c c.regOff.unknownVlan :=
      hreg (r := .unknownVlan) (by simp [regMapUnknown, hnu]) (by simp)
    simp [unknownVlanCtrls, hnu, globalCtrl_apart hunk]

theorem ctrlTable_apart (c : Cfg) : ∀ d ∈ ctrlTable c, isPresent c d = true → CtrlApart c d := by
  have hglobal (name : Control) (shift width : Nat) : CtrlApart c (globalCtrl name c.regOff.control shift width) :=
    globalCtrl_apart (namesOther_control c)
  simp only [ctrlTable, List.forall_mem_append]
  refine ⟨⟨⟨?_, ?_⟩, fun d hd _ => unknownVlanCtrls_apart c d hd⟩, ?_⟩
  · simp [hglobal]
  · simp [portCtrl_apart]
  · simp +contextual [portCtrl_apart, threadCtrl_apart]

/-- What a place that `ctrlPlace` answers is (R271, R273): that of a present descriptor, for a port below P. -/
theorem ctrlPlace_ok {s : State} {port cid : BitVec 5} {d : CtrlPlace} (h : ctrlPlace port cid s = .ok d) :
    ∃ desc p, desc ∈ s.eng.ctrl ∧ isPresent s.cfg desc = true ∧ p < s.cfg.p ∧
      d.off = desc.base + p * desc.portStride := by
  unfold ctrlPlace at h
  split at h
  · cases h
  · split at h
    · cases h
    next desc hdesc =>
      dsimp only at h
      generalize (if isGlobal desc = true then 0 else port.toNat) = p at h
      split at h
      · cases h
      next hpresent =>
        split at h
        · cases h
        next hp =>
          cases h
          exact ⟨desc, p, List.mem_of_getElem? hdesc, by simpa using hpresent, by omega, rfl⟩

/-- R273: the offset a control has for a port names a register other than TABLE_CONTROL. -/
theorem ctrlPlace_namesOther {s : State} {port cid : BitVec 5} {d : CtrlPlace} (hctrl : s.eng.ctrl = ctrlTable s.cfg)
    (h : ctrlPlace port cid s = .ok d) : NamesOther s.cfg d.off := by
  obtain ⟨desc, p, hmem, hpresent, hp, hoff⟩ := ctrlPlace_ok h
  rw [hoff]
  obtain ⟨hstride, hbase⟩ | ⟨hstride, hbase⟩ := ctrlTable_apart s.cfg desc (hctrl ▸ hmem) hpresent
  · simpa [hstride] using hbase
  · rw [hstride, hbase, Nat.mul_comm]
    exact namesOther_portctl hp

theorem regAt_ctrlPlace_ne {s : State} {port cid : BitVec 5} {d : CtrlPlace} {r : Reg} (hs : Sound s)
    (hd : ctrlPlace port cid s = .ok d) (hr : regAt s.cfg d.off = some r) : r ≠ .tableControl := by
  obtain ⟨r', hmem, hne⟩ := ctrlPlace_namesOther hs.ctrl hd
  exact regMap_unique hs.cfg (mem_regMap_of_regAt hr) hmem ▸ hne

/-- The body of CTRL_SET keeps what a micro-step keeps: it writes no table entry. -/
theorem ctrlSetBody_kept {port cid : BitVec 5} {val : Word} {s u : State} {st : Status}
    (h : ctrlSetBody port cid val s = .ok (st, u)) : Kept s u := by
  unfold ctrlSetBody at h
  split at h
  · cases h
    exact .refl _
  next d hd =>
    split at h
    · cases h
      exact .refl _
    · split at h
      · cases h
      next r hr =>
        cases h
        have hread := memRead_kept r s
        refine ⟨(memWrite_durable r _ _).trans hread.frame, fun hs => ?_⟩
        exact (memWrite_kept _ _ (regAt_ctrlPlace_ne hs hd hr)).sound (hread.sound hs)

end Sys2Proof.Machine
end

section
/-! SUPPORT. What an instruction can answer, said once (`Answer`): a refusal, a fault, an access or a completion that
keeps what micro-steps keep, or the switch of the lifecycle that START and STOP make (R296, R297, R330 to R334). -/

namespace Sys2Proof.Machine

/-! ### The answers -/

/-- `eng.sw_armed <- b` where the aging mode is SW (R296, R297). -/
def armIfSw (b : Bool) (s : State) : State := setArmed (if s.eng.agingMode = .sw then b else s.eng.swArmed) s

@[simp] theorem armIfSw_eng_agingMode (b : Bool) (s : State) : (armIfSw b s).eng.agingMode = s.eng.agingMode := rfl

theorem armIfSw_of_ne {s : State} (b : Bool) (h : s.eng.agingMode ≠ .sw) : armIfSw b s = s := by
  simp only [armIfSw, if_neg h, setArmed]

/-- The next states that an instruction of a machine that has not faulted can answer. -/
inductive Answer (s : State) : State → Prop
  /-- before CREATE (R299) -/
  | notCreated (hc : s.eng.created = false) : Answer s (refuse .notCreated s)
  /-- a fault before any effect (R333) -/
  | faulted (hc : s.eng.created = true) (r : FaultReason) : Answer s (raiseFault r s)
  /-- a refusal of a created engine (R334) -/
  | refused (hc : s.eng.created = true) (r : RefusalReason) : Answer s (refuse r s)
  /-- a register access of the owner, which has no status (R90) -/
  | accessed (hc : s.eng.created = true) {t : State} (h : Kept s t) : Answer s t
  /-- a command that completes with a status (R330) -/
  | completed (hc : s.eng.created = true) {u : State} (c : Status) (h : Kept s u) : Answer s (withStatus c u)
  /-- START (`b`) and STOP (`!b`), which switch `started` and the software timer (R296, R297) -/
  | switched (hc : s.eng.created = true) {u v : State} (b : Bool) (hu : Kept s u)
      (hp : b = false → u.eng.agingMode = .sw → u.eng.swPending = none) (hv : Kept (armIfSw b u) v) :
      Answer s (withStatus .ok (setStarted b v))

/-- The outcome is a next state and one of the answers. -/
def Yields (s : State) (o : Host.Outcome State Fault Refusal) : Prop := ∃ t, o = .next t ∧ Answer s t

/-! ### Result registers -/

theorem setIndex_kept (i : Nat) (s : State) : Kept s (setIndex i s) := .of_same_table rfl rfl rfl
theorem setImg_kept (e : Image) (s : State) : Kept s (setImg e s) := .of_same_table rfl rfl rfl
theorem setValue_kept (v : Word) (s : State) : Kept s (setValue v s) := .of_same_table rfl rfl rfl
theorem setAux_kept (v : Word) (s : State) : Kept s (setAux v s) := .of_same_table rfl rfl rfl
theorem setBuf_kept (ws : List Word) (s : State) : Kept s (setBuf ws s) := .of_same_table rfl rfl rfl

/-! ### The ends of a command body -/

section Ends

variable {s u : State} (hc : s.eng.created = true)
include hc

theorem yields_complete (c : Status) (h : Kept s u) : Yields s (complete c u) := ⟨_, rfl, .completed hc c h⟩

theorem yields_completeIndex (c : Status) (i : Nat) (h : Kept s u) : Yields s (complete c (setIndex i u)) :=
  yields_complete hc c (h.trans (setIndex_kept i u))

theorem yields_fault (r : FaultReason) : Yields s (faultOutcome r s) := ⟨_, rfl, .faulted hc r⟩

theorem yields_refuse (r : RefusalReason) : Yields s (refuseOutcome r s) := ⟨_, rfl, .refused hc r⟩

theorem yields_withArg {α : Type} {a : Option α} {body : α → Host.Outcome State Fault Refusal}
    (h : ∀ v, Yields s (body v)) : Yields s (withArg a s body) := by
  cases a with
  | none => exact yields_fault hc .undefArg
  | some v => exact h v

theorem yields_reportMatch (found : Option (Nat × Image)) (h : Kept s u) : Yields s (reportMatch found u) := by
  cases found with
  | none => exact yields_complete hc _ h
  | some x => exact yields_completeIndex hc _ x.1 (h.trans (setImg_kept x.2 u))

theorem yields_reportIndex (found : Option (Nat × Image)) (h : Kept s u) : Yields s (reportIndex found u) := by
  cases found with
  | none => exact yields_complete hc _ h
  | some x => exact yields_completeIndex hc _ x.1 h

/-- A command on the entry a scan finds: NotFound, or the rest of the body with an index below N. -/
theorem yields_scan (pred : Image → Bool) {onFound : Nat → State → Host.Outcome State Fault Refusal}
    (hfound : ∀ i u, Kept s u → i < u.cfg.n → Yields s (onFound i u)) :
    Yields s (match scan pred s with
      | (none, u) => complete .notFound u
      | (some (i, _), u) => onFound i u) := by
  have hkept := scan_kept pred s
  have hindex := scan_index pred s
  rcases hscan : scan pred s with ⟨_ | ⟨i, e⟩, u⟩ <;> rw [hscan] at hkept hindex
  · exact yields_complete hc _ hkept
  · exact hfound i u hkept (hkept.cfg ▸ indexBelow_some.1 hindex)

/-- An add command: ResourceExhausted, or the rest of the body with a slot below N (R189). -/
theorem yields_alloc {found : Option Nat} {onSlot : Nat → State → Host.Outcome State Fault Refusal} (h : Kept s u)
    (hfound : IndexBelow s.cfg.n found) (hslot : ∀ i v, Kept s v → i < v.cfg.n → Yields s (onSlot i v)) :
    Yields s (match alloc found u with
      | (none, v) => complete .resourceExhausted v
      | (some i, v) => onSlot i v) := by
  have hkept := h.trans (alloc_kept found u)
  have hindex := alloc_index (h.cfg.symm ▸ hfound : IndexBelow u.cfg.n found)
  rcases halloc : alloc found u with ⟨_ | i, v⟩ <;> rw [halloc] at hkept hindex
  · exact yields_complete hc _ hkept
  · exact hslot i v hkept (by rw [hkept.cfg, ← h.cfg]; exact indexBelow_some.1 hindex)

theorem yields_writeAlloc {found : Option Nat} (e : Image) (h : Kept s u) (hfound : IndexBelow s.cfg.n found) :
    Yields s (writeAlloc (alloc found u).1 e (alloc found u).2) := by
  have hcases := yields_alloc (onSlot := fun i v => complete .ok (setIndex i (tblWrite i e v))) hc h hfound
    fun i v hv hi => yields_completeIndex hc _ i (hv.trans (tblWrite_kept e v hi))
  rcases halloc : alloc found u with ⟨_ | i, v⟩ <;> rw [halloc] at hcases <;> exact hcases

end Ends

theorem yields_whenCreated {s : State} {body : Host.Outcome State Fault Refusal} (hf : s.faulted = false)
    (h : s.eng.created = true → Yields s body) : Yields s (whenCreated s body) := by
  cases hc : s.eng.created with
  | false => exact ⟨_, by simp [whenCreated, hf, hc, refuseOutcome], .notCreated hc⟩
  | true => simpa [whenCreated, hf, hc] using h hc

/-! ### The instructions -/

section Instructions

variable {s : State} (hf : s.faulted = false)
include hf

theorem execTblRead_yields : Yields s (execTblRead s) :=
  yields_whenCreated hf fun hc => yields_withArg hc fun idx => by
    split
    · exact yields_fault hc _
    · exact yields_completeIndex hc _ _ ((tblRead_kept _ s).trans (setImg_kept _ _))

theorem execTblWrite_yields : Yields s (execTblWrite s) :=
  yields_whenCreated hf fun hc => yields_withArg hc fun idx => yields_withArg hc fun e => by
    split
    · exact yields_fault hc _
    next hi => exact yields_completeIndex hc _ _ (tblWrite_kept e s (by simpa [indexFault] using hi))

theorem execDump_yields : Yields s (execDump s) :=
  yields_whenCreated hf fun hc => yields_complete hc _ ((dumpFrom_kept _ 0 s).trans (setBuf_kept _ _))

theorem execRestore_yields : Yields s (execRestore s) :=
  yields_whenCreated hf fun hc => yields_withArg hc fun ws => by
    split
    next hlen => exact yields_complete hc _ (restoreFrom_kept ws 0 s (by omega))
    next => exact yields_complete hc _ (.refl s)

theorem execMatchUcast_yields : Yields s (execMatchUcast s) :=
  yields_whenCreated hf fun hc => yields_withArg hc fun _ => yields_withArg hc fun _ =>
    yields_reportMatch hc _ (scan_kept _ s)

theorem execMatchVlan_yields : Yields s (execMatchVlan s) :=
  yields_whenCreated hf fun hc => yields_withArg hc fun _ => yields_reportMatch hc _ (scan_kept _ s)

theorem execMatchFree_yields : Yields s (execMatchFree s) :=
  yields_whenCreated hf fun hc => yields_reportIndex hc _ (scan_kept _ s)

theorem execFindAgeable_yields : Yields s (execFindAgeable s) :=
  yields_whenCreated hf fun hc => yields_reportIndex hc _ (scan_kept _ s)

theorem execAddUcast_yields (vlan secure blocked : Bool) (port : BitVec 5) :
    Yields s (execAddUcast vlan secure blocked port s) :=
  yields_whenCreated hf fun hc => yields_withArg hc fun addr => yields_withArg hc fun vid => by
    split
    · exact yields_writeAlloc hc _ (scan_kept (addrMatches addr vid) s) (scan_index _ s)
    · exact yields_complete hc _ (.refl s)

theorem execDelUcast_yields (vlan : Bool) : Yields s (execDelUcast vlan s) :=
  yields_whenCreated hf fun hc => yields_withArg hc fun _ => yields_withArg hc fun _ =>
    yields_scan hc _ fun i u h hi => yields_completeIndex hc _ i (h.trans (tblWrite_kept 0 u hi))

theorem execAddMcast_yields (vlan super : Bool) (mstate : BitVec 2) : Yields s (execAddMcast vlan super mstate s) :=
  yields_whenCreated hf fun hc => yields_withArg hc fun addr => yields_withArg hc fun _ =>
  yields_withArg hc fun vid =>
    yields_writeAlloc hc _ ((scan_kept (addrMatches addr vid) s).trans (existingImage_kept _ _)) (scan_index _ s)

theorem execDelMcast_yields (vlan : Bool) : Yields s (execDelMcast vlan s) :=
  yields_whenCreated hf fun hc => yields_withArg hc fun _ => yields_withArg hc fun _ => yields_withArg hc fun _ =>
    yields_scan hc _ fun i u h hi => by
      have hread := tblRead_kept i u
      exact yields_completeIndex hc _ i ((h.trans hread).trans (tblWrite_kept _ _ (hread.cfg ▸ hi)))

theorem execFlushMcast_yields (any : Bool) : Yields s (execFlushMcast any s) :=
  yields_whenCreated hf fun hc => yields_withArg hc fun _ => yields_withArg hc fun filter =>
    yields_complete hc _ (forEntries_kept _ 0 s (flushEntry_kept filter _) (by omega))

omit hf in
theorem addVlanWith_yields {u : State} (hc : s.eng.created = true) (h : Kept s u) (vid : Vid) (m : VlanMasks) :
    Yields s (addVlanWith vid m u) :=
  have hold := h.trans ((scan_kept (vlanMatches vid) u).trans (existingImage_kept _ _))
  yields_alloc hc hold (h.cfg ▸ scan_index _ u) fun i v hv hi =>
    have hbuild := buildVlan_kept _ vid m v
    yields_completeIndex hc _ i ((hv.trans hbuild).trans (tblWrite_kept _ _ (hbuild.cfg ▸ hi)))

theorem execAddVlan_yields : Yields s (execAddVlan s) :=
  yields_whenCreated hf fun hc => yields_withArg hc fun _ => yields_withArg hc fun _ => yields_withArg hc fun _ =>
    yields_withArg hc fun _ => yields_withArg hc fun _ => addVlanWith_yields hc (.refl s) _ _

theorem execVlanAddModify_yields : Yields s (execVlanAddModify s) :=
  yields_whenCreated hf fun hc => yields_withArg hc fun vid => yields_withArg hc fun _ => yields_withArg hc fun _ =>
    yields_withArg hc fun _ => yields_withArg hc fun _ =>
      addVlanWith_yields hc ((scan_kept (vlanMatches vid) s).trans (existingMasks_kept _ _)) _ _

theorem execVlanDelModify_yields : Yields s (execVlanDelModify s) :=
  yields_whenCreated hf fun hc => yields_withArg hc fun vid => yields_withArg hc fun _ =>
    yields_scan hc _ fun i u h hi =>
      have hbody := (tblRead_kept i u).trans (delModify_kept _ vid _ _)
      yields_completeIndex hc _ i ((h.trans hbody).trans (tblWrite_kept _ _ (hbody.cfg ▸ hi)))

theorem execDelVlan_yields (force : Bool) : Yields s (execDelVlan force s) :=
  yields_whenCreated hf fun hc => yields_withArg hc fun vid => yields_withArg hc fun _ =>
    yields_scan hc _ fun i u h hi =>
      have hbody := (tblRead_kept i u).trans (delVlanImage_kept force _ vid _ _)
      yields_completeIndex hc _ i ((h.trans hbody).trans (tblWrite_kept _ _ (hbody.cfg ▸ hi)))

theorem execSetUnregMcast_yields (en : Bool) : Yields s (execSetUnregMcast en s) :=
  yields_whenCreated hf fun hc => yields_withArg hc fun _ =>
    yields_complete hc _ (forEntries_kept _ 0 s (unregEntry_kept en _) (by omega))

theorem execSetAllmulti_yields (en any : Bool) (port : BitVec 5) : Yields s (execSetAllmulti en any port s) :=
  yields_whenCreated hf fun hc => by
    split
    · exact yields_complete hc _ (forEntries_kept _ 0 s (allmultiEntry_kept en any port) (by omega))
    · exact yields_complete hc _ (.refl s)

theorem execCtrlGet_yields (port cid : BitVec 5) : Yields s (execCtrlGet port cid s) :=
  yields_whenCreated hf fun hc => by
    split
    · exact yields_complete hc _ (.refl s)
    · split
      · exact yields_refuse hc _
      next r _ => exact yields_complete hc _ ((memRead_kept r s).trans (setValue_kept _ _))

theorem execCtrlSet_yields (port cid : BitVec 5) : Yields s (execCtrlSet port cid s) :=
  yields_whenCreated hf fun hc => yields_withArg hc fun _ => by
    split
    · exact yields_refuse hc _
    next hset => exact yields_complete hc _ (ctrlSetBody_kept hset)

omit hf in
theorem rateLimit_yields (hc : s.eng.created = true) (port cid : BitVec 5) (pps : Word) :
    Yields s (rateLimit port cid pps s) := by
  unfold rateLimit
  dsimp only
  split
  · exact yields_complete hc _ (.refl s)
  · split
    · exact yields_refuse hc _
    next hset =>
      exact yields_complete hc _ ((ctrlSetBody_kept hset).trans ((setValue_kept _ _).trans (setAux_kept _ _)))
    next hset => exact yields_complete hc _ (ctrlSetBody_kept hset)

theorem execRatelimitMc_yields (port : BitVec 5) : Yields s (execRatelimitMc port s) :=
  yields_whenCreated hf fun hc => yields_withArg hc fun _ => rateLimit_yields hc _ _ _

theorem execRatelimitBc_yields (port : BitVec 5) : Yields s (execRatelimitBc port s) :=
  yields_whenCreated hf fun hc => yields_withArg hc fun _ => rateLimit_yields hc _ _ _

theorem execStatusQuery_yields : Yields s (execStatusQuery s) :=
  yields_whenCreated hf fun hc => by
    split
    · exact yields_complete hc _ ((memRead_kept .status s).trans (setValue_kept _ _))
    · exact yields_complete hc _ (.refl s)

theorem execMmioRead_yields (width : AccessWidth) (off : Word) : Yields s (execMmioRead width off s) :=
  yields_whenCreated hf fun hc => by
    split
    · exact yields_refuse hc _
    next r _ => exact ⟨_, rfl, .accessed hc ((readReg_kept r s).trans (.of_same_table rfl rfl rfl))⟩

theorem execMmioWrite_yields (width : AccessWidth) (off v : Word) : Yields s (execMmioWrite width off v s) :=
  yields_whenCreated hf fun hc => by
    split
    · exact yields_refuse hc _
    · split
      · exact yields_fault hc _
      next hok => exact ⟨_, rfl, .accessed hc (writeReg_kept hok)⟩

end Instructions

/-! ### START and STOP -/

theorem setControlBit_kept (b : Nat) (s : State) : Kept s (setControlBit b s) :=
  (memRead_kept .control s).trans (memWrite_kept _ _ (by simp))

theorem clearControlBit_kept (b : Nat) (s : State) : Kept s (clearControlBit b s) :=
  (memRead_kept .control s).trans (memWrite_kept _ _ (by simp))

/-- R296: AgingStart arms the timer in SW mode, and otherwise keeps what a micro-step keeps. -/
theorem agingStart_kept (s : State) : Kept (armIfSw true s) (agingStart s) := by
  cases hm : s.eng.agingMode with
  | off => simpa [agingStart, armIfSw_of_ne, hm] using .refl s
  | hw => simpa [agingStart, armIfSw_of_ne, hm] using memWrite_kept _ s (by simp)
  | sw => simpa [agingStart, armIfSw, hm] using .refl _

/-- After a tick-write of the software timer no tick is pending (R300). -/
theorem tickWrite_quiet {s : State} (hp : swTimerPresent s = true) : Quiet (tickWrite s) := by
  simp only [tickWrite, hp, if_true, Quiet]
  split
  next h => exact h
  next => rfl

/-- R297, R301: AgingStop completes a pending tick and disarms the timer in SW mode, and otherwise keeps what a
micro-step keeps. -/
theorem agingStop_kept {s : State} (hc : s.eng.created = true) :
    ∃ u, Kept s u ∧ (u.eng.agingMode = .sw → u.eng.swPending = none) ∧ Kept (armIfSw false u) (agingStop s) := by
  cases hm : s.eng.agingMode with
  | off => exact ⟨s, .refl s, by simp [hm], by simpa [agingStop, armIfSw_of_ne, hm] using .refl s⟩
  | hw =>
    have hwrite := memWrite_kept (r := .agingTimer) 0 s (by simp)
    exact ⟨s, .refl s, by simp [hm], by simpa [agingStop, armIfSw_of_ne, hm] using hwrite⟩
  | sw =>
    have hmid := interleave_kept s
    have hend := hmid.trans (agentStep_kept .tickWrite _)
    have hpresent : swTimerPresent (interleave s) = true := by
      simp [swTimerPresent, hmid.created, hmid.agingMode, hc, hm]
    refine ⟨tickWrite (interleave s), hend, fun _ => tickWrite_quiet hpresent, ?_⟩
    have hmode : (tickWrite (interleave s)).eng.agingMode = .sw := hend.agingMode.trans hm
    simpa [agingStop, cancelTimer, armIfSw, hm, hmode] using .refl _

theorem maybeClear_kept (s : State) : Kept s (maybeClear s) := by
  simp only [maybeClear]
  split
  · exact (drawBool_kept s).trans (setControlBit_kept _ _)
  · exact drawBool_kept s

theorem execStart_yields {s : State} (hf : s.faulted = false) : Yields s (execStart s) :=
  yields_whenCreated hf fun hc =>
    have hprescale := memWrite_kept (r := .prescale) (BitVec.ofNat 32 (s.cfg.fRef / rlMinPps)) s (by simp)
    have hbits := hprescale.trans ((setControlBit_kept enableBit _).trans (setControlBit_kept clearBit _))
    ⟨_, rfl, .switched hc true hbits (by simp) (agingStart_kept _)⟩

theorem execStop_yields {s : State} (hf : s.faulted = false) : Yields s (execStop s) :=
  yields_whenCreated hf fun hc =>
    have ⟨_, hu, hquiet, hstop⟩ := agingStop_kept hc
    ⟨_, rfl, .switched hc false hu (fun _ => hquiet)
      (hstop.trans ((maybeClear_kept _).trans (clearControlBit_kept _ _)))⟩

/-! ### Every instruction -/

/-- Every instruction of a machine that has not faulted answers a next state, one of those of `Answer`. -/
theorem exec_yields (i : Instr) {s : State} (hf : s.faulted = false) : Yields s (exec i s) := by
  cases i with
  | tblRead => exact execTblRead_yields hf
  | tblWrite => exact execTblWrite_yields hf
  | dump => exact execDump_yields hf
  | restore => exact execRestore_yields hf
  | matchUcast => exact execMatchUcast_yields hf
  | matchVlan => exact execMatchVlan_yields hf
  | matchFree => exact execMatchFree_yields hf
  | findAgeable => exact execFindAgeable_yields hf
  | addUcast vlan secure blocked port => exact execAddUcast_yields hf vlan secure blocked port
  | delUcast vlan => exact execDelUcast_yields hf vlan
  | addMcast vlan super mstate => exact execAddMcast_yields hf vlan super mstate
  | delMcast vlan => exact execDelMcast_yields hf vlan
  | flushMcast any => exact execFlushMcast_yields hf any
  | addVlan => exact execAddVlan_yields hf
  | vlanAddModify => exact execVlanAddModify_yields hf
  | vlanDelModify => exact execVlanDelModify_yields hf
  | delVlan force => exact execDelVlan_yields hf force
  | setUnregMcast en => exact execSetUnregMcast_yields hf en
  | setAllmulti en any port => exact execSetAllmulti_yields hf en any port
  | ctrlGet port cid => exact execCtrlGet_yields hf port cid
  | ctrlSet port cid => exact execCtrlSet_yields hf port cid
  | ratelimitMc port => exact execRatelimitMc_yields hf port
  | ratelimitBc port => exact execRatelimitBc_yields hf port
  | start => exact execStart_yields hf
  | stop => exact execStop_yields hf
  | statusQuery => exact execStatusQuery_yields hf
  | mmioRead width off => exact execMmioRead_yields hf width off
  | mmioWrite width off v => exact execMmioWrite_yields hf width off v

/-- R333: a faulted machine answers no instruction. -/
theorem exec_faulted (i : Instr) {s : State} (hf : s.faulted = true) : exec i s = .fault .quiescent := by
  have hgate (body : Host.Outcome State Fault Refusal) : whenCreated s body = .fault .quiescent := by
    simp [whenCreated, hf]
  cases i <;> exact hgate _

/-- The inversion of `exec`: a next state is one of the answers. -/
theorem exec_next {i : Instr} {s t : State} (h : exec i s = .next t) : Answer s t := by
  cases hf : s.faulted with
  | true => simp [exec_faulted i hf] at h
  | false =>
    obtain ⟨t', ht', hans⟩ := exec_yields i hf
    cases h.symm.trans ht'
    exact hans

end Sys2Proof.Machine
end

section
/-! SUPPORT. The state's statements: every step keeps the invariant and the sticky marks (R47), a disallowed VLAN field is
reported and no command reaches it (R34), and a command that reads an undefined argument faults (R23, R332). -/

namespace Sys2Proof.Machine

/-! ### What one step can do -/

/-- The inversion of `step` (R332, R333, R348): an empty agenda idles or completes the pending tick, and otherwise the
first move runs. -/
theorem step_next {s t : State} (h : step s = .next t) :
    s.faulted = false ∧ ((s.agenda = [] ∧ (t = s ∨ t = agentStep .tickWrite s)) ∨
      ∃ m later, s.agenda = m :: later ∧ runMove m { s with agenda := later } = .next t) := by
  cases hf : s.faulted with
  | true => simp [step, stepOnce, hf] at h
  | false =>
    refine ⟨rfl, ?_⟩
    cases hag : s.agenda with
    | nil =>
      have ht : idle s = t := by simpa [step, stepOnce, nextMove, hf, hag] using h
      subst ht
      unfold idle
      split
      · exact .inl ⟨rfl, .inl rfl⟩
      · exact .inl ⟨rfl, .inr rfl⟩
    | cons m later => exact .inr ⟨m, later, rfl, by simpa [step, stepOnce, nextMove, hf, hag] using h⟩

theorem presentRequest_next {r : Request} {s t : State} (h : presentRequest r s = .next t) :
    (∃ reason, t = refuse reason s) ∨ ∃ i, exec i s = .next t := by
  unfold presentRequest at h
  split at h
  · split at h
    · cases h
      exact .inl ⟨_, rfl⟩
    next i _ => exact .inr ⟨i, h⟩
  · cases h
    exact .inl ⟨_, rfl⟩

/-- What CREATE can do (R290, R336): refuse, fail, or install a well-formed configuration, in which case the engine was
not created before. -/
theorem create_cases (c : CreateRequest) (identity : String) (s : State) :
    (∃ r, create c identity s = refuse r s) ∨
    (∃ o k, create c identity s = createFailed o { s with drawCount := k }) ∨
    ∃ cfg k, create c identity s = install cfg (settleTable cfg.n { s with drawCount := k }) ∧
      s.eng.created = false ∧ cfgWf cfg = true := by
  unfold create
  split
  · exact .inl ⟨_, rfl⟩
  next hc =>
    split
    · exact .inr (.inl ⟨_, s.drawCount, rfl⟩)
    next v _ =>
      split
      · exact .inr (.inl ⟨_, s.drawCount, rfl⟩)
      next n _ =>
        split
        · exact .inr (.inl ⟨_, s.drawCount, rfl⟩)
        · split
          · exact .inl ⟨_, rfl⟩
          next hwf =>
            dsimp only [drawBool]
            split
            · exact .inr (.inl ⟨_, _, rfl⟩)
            · exact .inr (.inr ⟨createCfg c v n, _, rfl, by simpa using hc, by simpa using hwf⟩)

/-! ### The invariant -/

theorem Inv.sound {s : State} (h : Inv s) (hc : s.eng.created = true) : Sound s := by
  obtain ⟨hwf, hbelow, -, hpending, hcreated, -, -⟩ := h
  obtain ⟨hcfg, -, hctrl, -⟩ := hcreated hc
  exact ⟨hcfg, hctrl, hwf, hbelow, hpending⟩

/-- The invariant of a created engine: `Sound`, with the STATUS code, the aging mode and the timer. -/
theorem inv_of_created {s : State} (hc : s.eng.created = true) (hs : Sound s) (hst : s.res.status.toNat ≤ 4)
    (hmode : s.eng.agingMode = agingModeOf s.cfg)
    (harm : s.eng.swArmed = true ↔ s.eng.started = true ∧ s.eng.agingMode = .sw) (hlost : s.tableLost = false) :
    Inv s :=
  ⟨hs.wf, hs.below, hst, hs.pending, fun _ => ⟨hs.cfg, hmode, hs.ctrl, harm⟩, by simp [hc], by simp [hlost]⟩

/-- What the invariant says of a created engine beside `Sound`. -/
theorem Inv.created {s : State} (h : Inv s) (hc : s.eng.created = true) :
    s.res.status.toNat ≤ 4 ∧ s.eng.agingMode = agingModeOf s.cfg ∧
      (s.eng.swArmed = true ↔ s.eng.started = true ∧ s.eng.agingMode = .sw) ∧ s.tableLost = false := by
  obtain ⟨-, -, hst, -, hcreated, -, hlost⟩ := h
  obtain ⟨-, hmode, -, harm⟩ := hcreated hc
  exact ⟨hst, hmode, harm, by simpa [hc] using hlost⟩

theorem Kept.inv {s t : State} (h : Kept s t) (hc : s.eng.created = true) (hi : Inv s) : Inv t := by
  obtain ⟨hst, hmode, harm, hlost⟩ := Inv.created hi hc
  refine inv_of_created (h.created.trans hc) (h.sound (Inv.sound hi hc)) (h.status ▸ hst) ?_ ?_ ?_
  · rw [h.agingMode, h.cfg, hmode]
  · rw [h.swArmed, h.started, h.agingMode, harm]
  · rw [h.tableLost, hlost]

theorem statusCode_le (c : Status) : (statusCode c).toNat ≤ 4 := by cases c <;> decide

theorem withStatus_inv {s : State} (c : Status) (h : Inv s) : Inv (withStatus c s) := by
  obtain ⟨hwf, hbelow, -, hrest⟩ := h
  exact ⟨hwf, hbelow, statusCode_le c, hrest⟩

/-- R296, R297: switching the software timer keeps `Sound` where no tick is left pending behind a disarmed timer. -/
theorem armIfSw_sound {s : State} {b : Bool} (h : Sound s)
    (hp : b = false → s.eng.agingMode = .sw → s.eng.swPending = none) : Sound (armIfSw b s) := by
  refine ⟨h.cfg, h.ctrl, h.wf, h.below, ?_⟩
  have hpending := h.pending
  by_cases hm : s.eng.agingMode = .sw
  · cases b with
    | true => simp [armIfSw, hm]
    | false => simp [armIfSw, hp rfl hm]
  · simpa [armIfSw, hm] using hpending

theorem armIfSw_swArmed {s : State} (b : Bool) (h : s.eng.swArmed = true → s.eng.agingMode = .sw) :
    (armIfSw b s).eng.swArmed = true ↔ b = true ∧ s.eng.agingMode = .sw := by
  by_cases hm : s.eng.agingMode = .sw
  · simp [armIfSw, hm]
  · simpa [armIfSw, hm] using mt h hm

/-- The switch of START and STOP keeps the invariant. -/
theorem switched_inv {u v : State} {b : Bool} (hc : u.eng.created = true) (hi : Inv u)
    (hp : b = false → u.eng.agingMode = .sw → u.eng.swPending = none) (hv : Kept (armIfSw b u) v) :
    Inv (setStarted b v) := by
  obtain ⟨hst, hmode, harm, hlost⟩ := Inv.created hi hc
  have hsound := hv.sound (armIfSw_sound (Inv.sound hi hc) hp)
  refine inv_of_created ?_ ⟨hsound.cfg, hsound.ctrl, hsound.wf, hsound.below, hsound.pending⟩ ?_ ?_ ?_ ?_
  · simp [hv.created, armIfSw, hc]
  · simpa [setStarted, hv.status, armIfSw] using hst
  · simp [hv.agingMode, hv.cfg, armIfSw, hmode]
  · have harm' := armIfSw_swArmed b fun h => (harm.1 h).2
    simpa [hv.swArmed, hv.agingMode] using harm'
  · simp [hv.tableLost, armIfSw, hlost]

theorem Answer.inv {s t : State} (h : Answer s t) (hi : Inv s) : Inv t := by
  cases h with
  | notCreated | faulted | refused => exact hi
  | accessed hc h => exact h.inv hc hi
  | completed hc c h => exact withStatus_inv c (h.inv hc hi)
  | switched hc b hu hp hv => exact withStatus_inv _ (switched_inv (hu.created.trans hc) (hu.inv hc hi) hp hv)

theorem agentStep_inv (x : AgentStep) {s : State} (hi : Inv s) : Inv (agentStep x s) := by
  cases hc : s.eng.created with
  | false => rwa [agentStep_not_created x s hc]
  | true => exact (agentStep_kept x s).inv hc hi

theorem redrawTable_wf_below (n : Nat) {s : State} (hw : Table.wf s.table = true)
    (hb : Table.below n s.table = true) :
    Table.wf (redrawTable n s).table = true ∧ Table.below n (redrawTable n s).table = true :=
  ⟨redrawnTable_wf n 0 _ _ hw, redrawnTable_below n 0 _ n _ (by omega) hb⟩

theorem install_inv {c : Cfg} {s : State} (hcfg : cfgWf c = true) (hst : s.res.status.toNat ≤ 4)
    (htable : Table.wf s.table = true ∧ Table.below c.n s.table = true) (hlost : s.tableLost = false) :
    Inv (install c s) :=
  inv_of_created rfl ⟨hcfg, rfl, htable.1, htable.2, by simp [install]⟩ hst rfl (by simp [install]) hlost

/-- R290, R336: CREATE starts from nothing listed, and installs a configuration that it checked. -/
theorem create_inv (c : CreateRequest) (identity : String) {s : State} (hi : Inv s) : Inv (create c identity s) := by
  obtain ⟨r, h⟩ | ⟨o, k, h⟩ | ⟨cfg, k, h, hc, hcfg⟩ := create_cases c identity s
  · rw [h]
    exact hi
  · rw [h]
    exact hi
  · obtain ⟨-, -, hst, -, -, hbefore, -⟩ := hi
    obtain ⟨-, -, hempty⟩ := hbefore hc
    have htable : Table.wf s.table = true ∧ Table.below cfg.n s.table = true := by
      simp [hempty, Table.wf_nil, Table.below_nil]
    rw [h]
    unfold settleTable
    split
    next => exact install_inv hcfg hst (redrawTable_wf_below _ htable.1 htable.2) rfl
    next hkept => exact install_inv hcfg hst htable (by simpa using hkept)

/-- R346: POWER_LOSS redraws the entries of a created engine, and notes the redraw before CREATE. -/
theorem powerLoss_inv {s : State} (hi : Inv s) : Inv (powerLoss s) := by
  obtain ⟨hwf, hbelow, hst, hpending, hcreated, hbefore, hlost⟩ := hi
  unfold powerLoss
  dsimp only
  split
  next hc =>
    have htable := redrawTable_wf_below (s := redrawRegs s) s.cfg.n hwf hbelow
    have hc' : s.eng.created = true := hc
    exact ⟨htable.1, htable.2, hst, hpending, hcreated, by simp [hc'], by simp⟩
  next hc => exact ⟨hwf, hbelow, hst, hpending, hcreated, hbefore, fun _ => by simpa using hc⟩

theorem runMove_inv (m : Move) {s t : State} (hi : Inv s) (h : runMove m s = .next t) : Inv t := by
  cases m with
  | request r =>
    obtain ⟨reason, rfl⟩ | ⟨i, hexec⟩ := presentRequest_next h
    · exact hi
    · exact (exec_next hexec).inv hi
  | arg w =>
    cases h
    exact hi
  | create c identity =>
    cases h
    exact create_inv c identity hi
  | powerLoss =>
    simp only [runMove] at h
    split at h
    · cases h
    · cases h
      exact powerLoss_inv hi
  | agent x =>
    cases h
    exact agentStep_inv x hi

/-- Settles O55: an instruction answers one of the cases of `Answer`, each of which keeps the invariant, and the owner's
other moves and the agents' steps keep it too. -/
theorem everyStepKeepsTheInvariant : Obligations.EveryStepKeepsTheInvariant := by
  intro s t hi hstep
  obtain ⟨-, ⟨-, rfl | rfl⟩ | ⟨m, later, -, hmove⟩⟩ := step_next hstep
  · exact hi
  · exact agentStep_inv _ hi
  · exact runMove_inv m (s := { s with agenda := later }) hi hmove

/-! ### The sticky marks (R47) -/

/-- The marks that a machine which has not faulted may carry stay set. -/
def MarksKept (s t : State) : Prop :=
  (s.refused = true → t.refused = true) ∧ (s.eng.contractViolation = true → t.eng.contractViolation = true)

theorem marksKept_of_eq {s t : State} (hr : t.refused = s.refused)
    (hv : t.eng.contractViolation = s.eng.contractViolation) : MarksKept s t :=
  ⟨by rw [hr]; exact id, by rw [hv]; exact id⟩

/-- No instruction changes the mark of a contract violation (R34). -/
theorem Answer.contractViolation {s t : State} (h : Answer s t) :
    t.eng.contractViolation = s.eng.contractViolation := by
  cases h with
  | notCreated | faulted | refused => rfl
  | accessed _ h => exact h.contractViolation
  | completed _ c h => exact h.contractViolation
  | switched _ b hu _ hv => simp [hv.contractViolation, armIfSw, hu.contractViolation]

theorem Answer.refused_set {s t : State} (h : Answer s t) (hs : s.refused = true) : t.refused = true := by
  cases h with
  | notCreated | refused => rfl
  | faulted => exact hs
  | accessed _ h => exact h.refused.trans hs
  | completed _ c h => exact h.refused.trans hs
  | switched _ b hu _ hv => simp [hv.refused, armIfSw, hu.refused, hs]

theorem create_marksKept (c : CreateRequest) (identity : String) (s : State) : MarksKept s (create c identity s) := by
  obtain ⟨r, h⟩ | ⟨o, k, h⟩ | ⟨cfg, k, h, -, -⟩ := create_cases c identity s <;> rw [h]
  · exact ⟨fun _ => rfl, id⟩
  · exact marksKept_of_eq rfl rfl
  · unfold settleTable
    split <;> exact marksKept_of_eq rfl rfl

theorem runMove_marksKept (m : Move) {s t : State} (h : runMove m s = .next t) : MarksKept s t := by
  cases m with
  | request r =>
    obtain ⟨reason, rfl⟩ | ⟨i, hexec⟩ := presentRequest_next h
    · exact ⟨fun _ => rfl, id⟩
    · exact ⟨(exec_next hexec).refused_set, by rw [(exec_next hexec).contractViolation]; exact id⟩
  | arg w =>
    cases h
    exact marksKept_of_eq rfl rfl
  | create c identity =>
    cases h
    exact create_marksKept c identity s
  | powerLoss =>
    simp only [runMove] at h
    split at h
    · cases h
    · cases h
      unfold powerLoss
      dsimp only
      split <;> exact marksKept_of_eq rfl rfl
  | agent x =>
    cases h
    exact marksKept_of_eq (agentStep_kept x s).refused (agentStep_kept x s).contractViolation

/-- Settles O56: a faulted machine answers no next state, and no move clears either of the other two marks. -/
theorem stickyMarksAreNeverCleared : Obligations.StickyMarksAreNeverCleared := by
  intro s t hstep
  obtain ⟨hf, hcases⟩ := step_next hstep
  have hmarks : MarksKept s t := by
    obtain ⟨-, rfl | rfl⟩ | ⟨m, later, -, hmove⟩ := hcases
    · exact marksKept_of_eq rfl rfl
    · have hkept := agentStep_kept .tickWrite s
      exact marksKept_of_eq hkept.refused hkept.contractViolation
    · exact runMove_marksKept m (s := { s with agenda := later }) hmove
  exact ⟨by simp [hf], hmarks.1, hmarks.2⟩

/-! ### Disallowed VLAN fields (R34) -/

/-- Settles O13: the accessors report a field that the layout does not allow, and the commands use only fields that it
allows, so that none of the answers of an instruction changes the mark. -/
theorem disallowedVlanFieldIsReported : Obligations.DisallowedVlanFieldIsReported := by
  refine ⟨fun e id v s h => ⟨?_, ?_⟩, fun i s t h => (exec_next h).contractViolation⟩
  · exact ⟨Config.draw s.drawCount, s.drawCount + 1, by simp [vlanGet, h, drawWord, reportViolation]⟩
  · simp [vlanSet, h, reportViolation]

/-! ### Undefined arguments (R23, R83, R332) -/

/-- Reading arguments in turn faults UNDEF_ARG where the first is undefined or the rest of the body faults so. -/
theorem withArg_undef {α : Type} {a : Option α} {s : State} {body : α → Host.Outcome State Fault Refusal}
    (h : ∀ v, a = some v → body v = faultOutcome .undefArg s) : withArg a s body = faultOutcome .undefArg s := by
  cases a with
  | none => rfl
  | some v => exact h v rfl

/-- R83: `a.VID` is read only when VLAN = 1. -/
theorem scopedVid_isSome {vlan : Bool} {s : State} {vid : Vid} (h : scopedVid vlan s = some vid) :
    (!vlan || s.a.vid.isSome) = true := by
  cases vlan with
  | false => rfl
  | true => simp_all [scopedVid]

/-- R83: FLUSH_MCAST reads `a.VID` only when ANY = 0. -/
theorem flushFilter_isSome {any : Bool} {s : State} {filter : Option Vid} (h : flushFilter any s = some filter) :
    (any || s.a.vid.isSome) = true := by
  cases any with
  | true => rfl
  | false =>
    obtain ⟨vid, hvid, -⟩ := Option.map_eq_some_iff.1 h
    simp [hvid]

/-- Settles O7: the arguments are read before anything else (R332), and reading the first undefined one faults. -/
theorem undefinedArgumentFaults : Obligations.UndefinedArgumentFaults := by
  intro i s hlive h
  change exec i s = faultOutcome .undefArg s
  have reads {body : Host.Outcome State Fault Refusal} (hbody : body = faultOutcome .undefArg s) :
      whenCreated s body = faultOutcome .undefArg s := (whenCreated_live s body hlive).trans hbody
  cases i with
  | dump | matchFree | findAgeable | setAllmulti | ctrlGet | start | stop | statusQuery | mmioRead | mmioWrite =>
    simp [argsDefined] at h
  | tblRead | ctrlSet | ratelimitMc | ratelimitBc | restore | matchVlan | setUnregMcast =>
    exact reads (withArg_undef fun _ h₁ => by simp [argsDefined, h₁] at h)
  | tblWrite | matchUcast | vlanDelModify | delVlan =>
    exact reads (withArg_undef fun _ h₁ => withArg_undef fun _ h₂ => by simp [argsDefined, h₁, h₂] at h)
  | addUcast | delUcast =>
    exact reads (withArg_undef fun _ hmac => withArg_undef fun _ hvid =>
      absurd h (by simp [argsDefined, hmac, scopedVid_isSome hvid]))
  | addMcast | delMcast =>
    exact reads (withArg_undef fun _ hmac => withArg_undef fun _ hmask => withArg_undef fun _ hvid =>
      absurd h (by simp [argsDefined, hmac, hmask, scopedVid_isSome hvid]))
  | flushMcast =>
    exact reads (withArg_undef fun _ hmask => withArg_undef fun _ hfilter =>
      absurd h (by simp [argsDefined, hmask, flushFilter_isSome hfilter]))
  | addVlan | vlanAddModify =>
    exact reads (withArg_undef fun _ hvid => withArg_undef fun _ h₀ => withArg_undef fun _ h₁ =>
      withArg_undef fun _ h₂ => withArg_undef fun _ h₃ => by simp [argsDefined, hvid, h₀, h₁, h₂, h₃] at h)

end Sys2Proof.Machine
end

section
/-! SUPPORT. The owner's register accesses (R61, R62, R120): which register an access names, and what an access that names
none does. -/

namespace Sys2Proof.Machine

/-- R62, log 12: an access with one of the three defects names no register; the reason is MMIO_WIDTH for a wrong width and
otherwise MMIO_OFFSET. -/
theorem accessedReg_error {width : AccessWidth} {off : Word} {c : Cfg}
    (h : width.wf = false ∨ alignedOffset off = false ∨ regAt c off.toNat = none) :
    ∃ x, (x = .mmioWidth ∨ x = .mmioOffset) ∧ accessedReg width off c = .error x := by
  cases hw : width.wf with
  | false => exact ⟨.mmioWidth, .inl rfl, by simp [accessedReg, hw]⟩
  | true =>
    refine ⟨.mmioOffset, .inr rfl, ?_⟩
    cases ha : alignedOffset off with
    | false => simp [accessedReg, hw, ha]
    | true =>
      have hnone : regAt c off.toNat = none := by simpa [hw, ha] using h
      simp [accessedReg, hw, ha, hnone]

theorem exec_mmioRead_refused {s : State} {width : AccessWidth} {off : Word} {x : RefusalReason} (hlive : Live s)
    (h : accessedReg width off s.cfg = .error x) : exec (.mmioRead width off) s = refuseOutcome x s := by
  change execMmioRead width off s = _
  simp only [execMmioRead, whenCreated_live s _ hlive, h]

theorem exec_mmioWrite_refused {s : State} {width : AccessWidth} {off : Word} {x : RefusalReason} (hlive : Live s)
    (h : accessedReg width off s.cfg = .error x) (v : Word) :
    exec (.mmioWrite width off v) s = refuseOutcome x s := by
  change execMmioWrite width off v s = _
  simp only [execMmioWrite, whenCreated_live s _ hlive, h]

/-- Settles O15: the access names no register, whichever of the three defects it has, and both directions end in the
refusal that naming the register answers. -/
theorem mmioOutsideTheMapIsRefused : Obligations.MmioOutsideTheMapIsRefused := by
  intro s width off v hlive hdefect
  obtain ⟨x, hx, herror⟩ := accessedReg_error hdefect
  exact ⟨x, hx, exec_mmioRead_refused hlive herror, exec_mmioWrite_refused hlive herror v⟩

end Sys2Proof.Machine
end

section
/-! SUPPORT. The command word (R80 to R85): the decoder by the rows of the opcode map, the encoder read back field by
field, and the step that presents a request. -/

namespace Sys2Proof

/-! ### The rows of the opcode map (R82) -/

/-- `w` is `match` under `mask` of the row: outside the fields that the row uses, `w` is the row's OPC. -/
def OpcodeRow.Matches (r : OpcodeRow) (w : Word) : Prop := w &&& ~~~r.2.1 = r.1.setWidth 32

theorem opcodeMap_nodup : (opcodeMap.map Prod.fst).Nodup := by decide

theorem opcodeMap_fields_apart : ∀ r ∈ opcodeMap, r.2.1 &&& opcField = 0 ∧ r.2.1 &&& reservedMask = 0 := by decide

/-- The rows that the statements write out are those of the decoder. -/
theorem tableRows_eq : tableRows = opcodeMap.map fun r => (~~~r.2.1, r.1.setWidth 32) := by decide

theorem mem_of_lookup {α β : Type} [BEq α] [LawfulBEq α] {l : List (α × β)} {k : α} {v : β}
    (h : l.lookup k = some v) : (k, v) ∈ l := by
  obtain ⟨l₁, l₂, rfl, -⟩ := List.lookup_eq_some_iff.1 h
  simp

theorem lookup_of_mem {α β : Type} [BEq α] [LawfulBEq α] {l : List (α × β)} (hl : (l.map Prod.fst).Nodup)
    {p : α × β} (h : p ∈ l) : l.lookup p.1 = some p.2 := by
  obtain ⟨l₁, l₂, rfl⟩ := List.append_of_mem h
  have hfst : p.1 ∉ l₁.map Prod.fst := by
    rw [List.map_append, List.nodup_append] at hl
    obtain ⟨-, -, hne⟩ := hl
    exact fun hp => hne _ hp _ List.mem_cons_self rfl
  exact List.lookup_eq_some_iff.2 ⟨l₁, l₂, rfl, fun q hq => bne_iff_ne.2 fun heq =>
    hfst (heq ▸ List.mem_map_of_mem hq)⟩

/-! ### Legal words (R84) -/

theorem and_opcField (w : Word) : w &&& opcField = (w.extractLsb' 0 6).setWidth 32 := by
  apply BitVec.eq_of_toNat_eq
  have hlow : w.toNat &&& 63 = w.toNat % 64 := Nat.and_two_pow_sub_one_eq_mod w.toNat 6
  simp [opcField, hlow, Nat.mod_eq_of_lt (show w.toNat % 64 < 4294967296 by omega)]

theorem opc_and_not_opcField : ∀ opc : BitVec 6, opc.setWidth 32 &&& ~~~opcField = 0 := by decide

/-- OPC (`f`), and the bits that are neither OPC nor a used field (`u`), make up the bits under a row's mask. -/
theorem and_not_eq_or {w f u : Word} (hu : u &&& f = 0) : w &&& ~~~u = (w &&& f) ||| (w &&& ~~~(f ||| u)) := by
  simp only [BitVec.eq_of_getLsbD_eq_iff, BitVec.getLsbD_and, BitVec.getLsbD_not, BitVec.getLsbD_or] at *
  grind

/-- A word matches a row when its OPC is the row's and every bit that is neither OPC nor a used field is 0. -/
theorem OpcodeRow.matches_iff {r : OpcodeRow} (hr : r ∈ opcodeMap) (w : Word) :
    r.Matches w ↔ w.extractLsb' 0 6 = r.1 ∧ w &&& ~~~(opcField ||| r.2.1) = 0 := by
  have hsplit : w &&& ~~~r.2.1 = (w.extractLsb' 0 6).setWidth 32 ||| (w &&& ~~~(opcField ||| r.2.1)) :=
    and_opcField w ▸ and_not_eq_or (opcodeMap_fields_apart r hr).1
  constructor
  · intro h
    have hrest : w &&& ~~~(opcField ||| r.2.1) = 0 := by
      calc w &&& ~~~(opcField ||| r.2.1) = w &&& ~~~r.2.1 &&& ~~~opcField := by
            rw [BitVec.not_or, BitVec.and_comm (~~~opcField), BitVec.and_assoc]
        _ = 0 := by rw [h, opc_and_not_opcField]
    rw [hrest, h] at hsplit
    exact ⟨by simpa using (congrArg (BitVec.setWidth 6) hsplit).symm, hrest⟩
  · rintro ⟨hopc, hrest⟩
    rw [Matches, hsplit, hrest, hopc]
    exact BitVec.or_zero

theorem and_reservedMask_eq_zero {r : OpcodeRow} (hr : r ∈ opcodeMap) {w : Word}
    (h : w &&& ~~~(opcField ||| r.2.1) = 0) : w &&& reservedMask = 0 := by
  have hused := (opcodeMap_fields_apart r hr).2
  have hopc : opcField &&& reservedMask = 0 := by decide
  simp only [BitVec.eq_of_getLsbD_eq_iff, BitVec.getLsbD_and, BitVec.getLsbD_not, BitVec.getLsbD_or] at *
  grind

theorem decodeWord_of_matches {r : OpcodeRow} (hr : r ∈ opcodeMap) {w : Word} (h : r.Matches w) :
    decodeWord w = .ok (r.2.2 w) := by
  obtain ⟨hopc, hrest⟩ := (OpcodeRow.matches_iff hr w).1 h
  simp [decodeWord, hopc, lookup_of_mem opcodeMap_nodup hr, and_reservedMask_eq_zero hr hrest, hrest]

theorem matches_of_decodeWord {w : Word} {i : Instr} (h : decodeWord w = .ok i) : ∃ r ∈ opcodeMap, r.Matches w := by
  unfold decodeWord at h
  split at h
  · cases h
  next used build hrow =>
    have hmem := mem_of_lookup hrow
    split at h
    · cases h
    · split at h
      · cases h
      next hrest => exact ⟨_, hmem, (OpcodeRow.matches_iff hmem w).2 ⟨rfl, not_not.1 hrest⟩⟩

/-- A word is legal when some row matches it. -/
theorem exists_decodeWord_ok_iff (w : Word) : (∃ i, decodeWord w = .ok i) ↔ ∃ r ∈ opcodeMap, r.Matches w :=
  ⟨fun ⟨_, h⟩ => matches_of_decodeWord h, fun ⟨_, hr, h⟩ => ⟨_, decodeWord_of_matches hr h⟩⟩

/-- The rows that match a word share its OPC, and no two rows have one OPC. -/
theorem length_matchingRows_le_one (w : Word) : (tableRows.filter fun r => w &&& r.1 == r.2).length ≤ 1 := by
  rw [← List.countP_eq_length_filter, tableRows_eq, List.countP_map]
  calc
    _ ≤ opcodeMap.countP (fun r => r.1 == w.extractLsb' 0 6) := List.countP_mono_left fun r hr h =>
      beq_iff_eq.2 ((OpcodeRow.matches_iff hr w).1 (beq_iff_eq.1 h)).1.symm
    _ = (opcodeMap.map Prod.fst).count (w.extractLsb' 0 6) := by
      rw [List.count, List.countP_map]
      rfl
    _ ≤ 1 := List.nodup_iff_count_le_one.1 opcodeMap_nodup _

theorem one_le_length_matchingRows (w : Word) :
    1 ≤ (tableRows.filter fun r => w &&& r.1 == r.2).length ↔ ∃ r ∈ opcodeMap, r.Matches w := by
  rw [← List.countP_eq_length_filter, tableRows_eq, List.countP_map, List.one_le_countP_iff]
  simp [OpcodeRow.Matches]

theorem legal_iff_one_matchingRow (w : Word) :
    (∃ i, decodeWord w = .ok i) ↔ (tableRows.filter fun r => w &&& r.1 == r.2).length = 1 := by
  rw [exists_decodeWord_ok_iff, ← one_le_length_matchingRows, (length_matchingRows_le_one w).ge_iff_eq]

/-! ### The fields of a command word (R80) -/

@[simp] theorem vlanOf_eq (w : Word) : vlanOf w = w.getLsbD 6 := rfl
@[simp] theorem secureOf_eq (w : Word) : secureOf w = w.getLsbD 7 := rfl
@[simp] theorem blockedOf_eq (w : Word) : blockedOf w = w.getLsbD 8 := rfl
@[simp] theorem superOf_eq (w : Word) : superOf w = w.getLsbD 9 := rfl
@[simp] theorem anyOf_eq (w : Word) : anyOf w = w.getLsbD 10 := rfl
@[simp] theorem enOf_eq (w : Word) : enOf w = w.getLsbD 11 := rfl
@[simp] theorem mstateOf_eq (w : Word) : mstateOf w = w.extractLsb' 14 2 := rfl
@[simp] theorem portOf_eq (w : Word) : portOf w = w.extractLsb' 16 5 := rfl
@[simp] theorem ctrlidOf_eq (w : Word) : ctrlidOf w = w.extractLsb' 21 5 := rfl

/-- A flag is a field of one bit. -/
@[simp] theorem flagAt_eq_fieldAt (f : Bool) (b : Nat) : flagAt f b = fieldAt (BitVec.ofBool f) b := rfl

theorem getLsbD_fieldAt {n : Nat} (v : BitVec n) (b k : Nat) :
    (fieldAt v b).getLsbD k = (decide (k < 32) && decide (b ≤ k) && v.getLsbD (k - b)) := by
  simp only [fieldAt, BitVec.getLsbD_shiftLeft, BitVec.getLsbD_setWidth]
  grind

@[simp] theorem getElem_fieldAt {n : Nat} (v : BitVec n) (b k : Nat) (hk : k < 32) :
    (fieldAt v b)[k] = (decide (b ≤ k) && v.getLsbD (k - b)) := by
  simp [← BitVec.getLsbD_eq_getElem, getLsbD_fieldAt, hk]

@[simp] theorem extractLsb'_fieldAt_self {n : Nat} (v : BitVec n) (b : Nat) (h : b + n ≤ 32) :
    (fieldAt v b).extractLsb' b n = v := by
  ext k hk
  simp [show b + k < 32 by omega, hk, BitVec.getLsbD_eq_getElem]

@[simp] theorem extractLsb'_fieldAt_apart {n : Nat} (v : BitVec n) {b start len : Nat}
    (h : b + n ≤ start ∨ start + len ≤ b) : (fieldAt v b).extractLsb' start len = 0 := by
  ext k hk
  have hout : b ≤ start + k → v.getLsbD (start + k - b) = false := fun hb => BitVec.getLsbD_of_ge _ _ (by omega)
  simpa [getLsbD_fieldAt] using fun _ => hout

/-! ### Decoding what was encoded (R85) -/

theorem encode_of_isCommand {i : Instr} (h : i.isCommand = true) : encode i = .word (encodeWord i) := by
  cases i with
  | mmioRead | mmioWrite => cases h
  | _ => rfl

theorem decodeRequest_encode_of_access {i : Instr} (h : i.isCommand = false) : decodeRequest (encode i) = .ok i := by
  cases i with
  | mmioRead | mmioWrite => rfl
  | _ => cases h

/-- A word under the mask of the row of `opc` decodes to what the row reads from it. -/
theorem decodeWord_of_lookup (opc : BitVec 6) {w used : Word} {build : Word → Instr}
    (hrow : opcodeMap.lookup opc = some (used, build)) (hw : w &&& ~~~used = opc.setWidth 32) :
    decodeWord w = .ok (build w) := decodeWord_of_matches (mem_of_lookup hrow) hw

/-- The command word matches its row (`Laws.RowMatch`), and each field that the row reads is the operand placed there. -/
theorem decodeWord_encodeWord {i : Instr} (h : i.isCommand = true) : decodeWord (encodeWord i) = .ok i := by
  cases i with
  | mmioRead | mmioWrite => cases h
  | tblRead | tblWrite | dump | restore | matchUcast | matchVlan | matchFree | findAgeable | addVlan | vlanAddModify
  | vlanDelModify | start | stop | statusQuery => rfl
  | delUcast f | delMcast f | flushMcast f | delVlan f | setUnregMcast f => cases f <;> rfl
  | addUcast vlan secure blocked port =>
    rw [decodeWord_of_lookup 0x10 rfl (Laws.RowMatch.addUcast vlan secure blocked port)]
    simp [encodeWord, BitVec.extractLsb'_or]
  | addMcast vlan super mstate =>
    rw [decodeWord_of_lookup 0x12 rfl (Laws.RowMatch.addMcast vlan super mstate)]
    simp [encodeWord, BitVec.extractLsb'_or]
  | setAllmulti en any port =>
    rw [decodeWord_of_lookup 0x1D rfl (Laws.RowMatch.setAllmulti en any port)]
    simp [encodeWord, BitVec.extractLsb'_or]
  | ctrlGet port cid =>
    rw [decodeWord_of_lookup 0x20 rfl (Laws.RowMatch.ctrlGet port cid)]
    simp [encodeWord, BitVec.extractLsb'_or]
  | ctrlSet port cid =>
    rw [decodeWord_of_lookup 0x21 rfl (Laws.RowMatch.ctrlSet port cid)]
    simp [encodeWord, BitVec.extractLsb'_or]
  | ratelimitMc port =>
    rw [decodeWord_of_lookup 0x22 rfl (Laws.RowMatch.ratelimitMc port)]
    simp [encodeWord, BitVec.extractLsb'_or]
  | ratelimitBc port =>
    rw [decodeWord_of_lookup 0x23 rfl (Laws.RowMatch.ratelimitBc port)]
    simp [encodeWord, BitVec.extractLsb'_or]

/-- Settles O1: a command by its word, and an access as the triple it is. -/
theorem decodeEncodeGivesTheInstruction : Obligations.DecodeEncodeGivesTheInstruction := by
  intro i _
  cases hi : i.isCommand with
  | true =>
    rw [encode_of_isCommand hi]
    exact decodeWord_encodeWord hi
  | false => exact decodeRequest_encode_of_access hi

/-- Settles O3: the decoder evaluated on each word. -/
theorem sampleWordsDecode : Obligations.SampleWordsDecode :=
  ⟨rfl, rfl, rfl, rfl, rfl, rfl, rfl, rfl, rfl, rfl, rfl⟩

namespace Machine

/-! ### Presenting a request (R332) -/

theorem step_request {s : State} {r : Request} {rest : List Move} (hlive : Live s)
    (h : s.agenda = .request r :: rest) : step s = presentRequest r { s with agenda := rest } := by
  simp [step, stepOnce, nextMove, runMove, hlive.1, h]

theorem presentRequest_legal {s : State} {r : Request} {i : Instr} (hlive : Live s) (h : decodeRequest r = .ok i) :
    presentRequest r s = exec i s := by
  simp [presentRequest, hlive.2, h]

theorem presentRequest_illegal {s : State} {r : Request} {e : DecodeError} (hlive : Live s)
    (h : decodeRequest r = .error e) : presentRequest r s = refuseOutcome .illegalCommand s := by
  simp [presentRequest, hlive.2, h]

/-- Settles O4: a live machine presents the request, and a legal one runs. -/
theorem stepRunsTheDecodedInstruction : Obligations.StepRunsTheDecodedInstruction :=
  fun _ _ _ _ hlive hagenda hdec => (step_request hlive hagenda).trans (presentRequest_legal hlive hdec)

/-- Settles O2: the rows have distinct OPCs, so a word that one row matches is matched by that row alone; a word that does
not decode is presented and refused. -/
theorem legalWordsMatchOneRowAndOthersAreRefused : Obligations.LegalWordsMatchOneRowAndOthersAreRefused := by
  refine fun w => ⟨legal_iff_one_matchingRow w, fun hillegal s rest hlive hagenda => ?_⟩
  cases hdec : decodeWord w with
  | ok i => exact absurd hdec (hillegal i)
  | error e =>
    rw [step_request hlive hagenda]
    exact presentRequest_illegal hlive hdec

end Machine

end Sys2Proof
end

section
/-! SUPPORT. The owner's accesses to a register of the map (R120 to R125): what the access runs, what a value read
holds, and for each kind of register what a write stores and what it leaves. -/

namespace Sys2Proof.Machine

/-! ### Reaching the register -/

section Access

variable {s : State} {off : Word} {r : Reg} (hlive : Live s) (ha : alignedOffset off = true)
  (hr : regAt s.cfg off.toNat = some r)

include ha hr in
theorem accessedReg_ok : accessedReg .w32 off s.cfg = .ok r := by simp [accessedReg, AccessWidth.wf, ha, hr]

include hlive ha hr

theorem exec_mmioRead_ok :
    exec (.mmioRead .w32 off) s = .next { (readReg r s).2 with busData := some (readReg r s).1 } := by
  change execMmioRead .w32 off s = _
  simp only [execMmioRead, whenCreated_live s _ hlive, accessedReg_ok ha hr]

theorem exec_mmioWrite_ok {v : Word} (hok : writeFault r v s = none) :
    exec (.mmioWrite .w32 off v) s = .next (writeReg r v s) := by
  change execMmioWrite .w32 off v s = _
  simp only [execMmioWrite, whenCreated_live s _ hlive, accessedReg_ok ha hr, hok]

theorem exec_mmioWrite_fault {v : Word} {f : FaultReason} (hf : writeFault r v s = some f) :
    exec (.mmioWrite .w32 off v) s = faultOutcome f s := by
  change execMmioWrite .w32 off v s = _
  simp only [execMmioWrite, whenCreated_live s _ hlive, accessedReg_ok ha hr, hf]

end Access

/-! ### The registers of the map (R21) -/

/-- What the map demands of AGING_TIMER and of the index of a bank register, where it lists one (R36, R41, R44). -/
def Reg.ListedIn (c : Cfg) : Reg → Prop
  | .agingTimer => c.hasHwAutoaging = true
  | .portctl n => n < c.p
  | .maskMux k => k < muxCount
  | _ => True

theorem listedIn_of_regAt {c : Cfg} {off : Nat} {r : Reg} (h : regAt c off = some r) : r.ListedIn c := by
  have hmem := mem_regMap_of_regAt h
  cases r with
  | agingTimer | portctl | maskMux =>
    cases hnu : nuControls c <;>
      simp_all [Reg.ListedIn, regMap, regMapBase, regMapFlags, regMapUnknown, regMapBanks]
  | _ => trivial

/-! ### Reads (R120) -/

/-- The free value of a read lies outside the named fields (R48). -/
theorem readWord_and_mask (v : ReadValue) : readWord v &&& v.mask = v.named &&& v.mask := by
  unfold readWord
  split
  · rfl
  · have hfree : v.free &&& ~~~v.mask &&& v.mask = 0#32 := by
      rw [BitVec.and_assoc, BitVec.and_comm (~~~v.mask), BitVec.and_not_self]
      exact BitVec.and_zero
    rw [BitVec.and_or_distrib_right, hfree, BitVec.or_zero]

theorem readWord_readReg (r : Reg) (s : State) :
    readWord (readReg r s).1 &&& namedMask s.cfg r = namedValue s r &&& namedMask s.cfg r := by
  rw [← readReg_named, ← readReg_mask, readWord_and_mask]

/-- Settles O14: the access answers what `readReg` reads, of which only the count of free values stays. -/
theorem mmioReadReturnsTheNamedFields : Obligations.MmioReadReturnsTheNamedFields := by
  intro s off r hlive ha hr
  obtain ⟨k, hframe⟩ := readReg_frame r s
  refine ⟨(readReg r s).1, k, ?_, readWord_readReg r s⟩
  rw [exec_mmioRead_ok hlive ha hr, hframe]

/-! ### Storage registers (R121) -/

/-- A register whose write stores its named fields and has no other effect (R121): neither read-only nor one of R122 to
R125. -/
abbrev Reg.IsStorage (r : Reg) : Prop :=
  r ∉ [Reg.idver, .status, .control, .agingTimer, .tableControl, .tableWord2, .tableWord1, .tableWord0]

theorem writeReg_storage_frame {r : Reg} (v : Word) (s : State) (h : r.IsStorage) :
    ∃ g, writeReg r v s = { s with regs := g } := by
  cases r with
  | idver | status | control | agingTimer | tableControl | tableWord2 | tableWord1 | tableWord0 =>
    exact absurd h (by decide)
  | _ => exact ⟨_, rfl⟩

theorem namedValue_writeReg_same {r : Reg} (v : Word) (s : State) (h : r.IsStorage)
    (hp : s.cfg.p ≤ 20) (hr : r.ListedIn s.cfg) :
    namedValue (writeReg r v s) r = v &&& namedMask s.cfg r := by
  cases r with
  | idver | status | control | agingTimer | tableControl | tableWord2 | tableWord1 | tableWord0 =>
    exact absurd h (by decide)
  | portctl n =>
    have hn : n < 20 := hr.trans_le hp
    simp [writeReg, namedValue, hn]
  | maskMux k =>
    have hk : k < 8 := hr
    simp [writeReg, namedValue, hk]
  | _ => rfl

theorem namedValue_writeReg_other {r r' : Reg} (v : Word) (s : State) (h : r.IsStorage) (hne : r' ≠ r) :
    namedValue (writeReg r v s) r' = namedValue s r' := by
  cases r with
  | idver | status | control | agingTimer | tableControl | tableWord2 | tableWord1 | tableWord0 =>
    exact absurd h (by decide)
  | portctl n =>
    cases r' with
    | portctl m =>
      have hmn : n ≠ m := fun heq => hne (congrArg Reg.portctl heq.symm)
      simp [writeReg, namedValue, Vector.getElem?_setIfInBounds_ne hmn]
    | _ => rfl
  | maskMux k =>
    cases r' with
    | maskMux j =>
      have hjk : k ≠ j := fun heq => hne (congrArg Reg.maskMux heq.symm)
      simp [writeReg, namedValue, Vector.getElem?_setIfInBounds_ne hjk]
    | _ => rfl
  | prescale | unknownVlan | unkMember | unkUnreg | unkReg | unkUntag | threadDef =>
    cases r' <;> simp [writeReg, namedValue] at hne ⊢

/-- Settles O16: a read-only register keeps its value, and a storage register reads as written where the others read as
before. -/
theorem mmioWriteStoresTheNamedFields : Obligations.MmioWriteStoresTheNamedFields := by
  intro s off v r hlive hp ha hr
  constructor
  · rintro (rfl | rfl) <;> exact exec_mmioWrite_ok hlive ha hr rfl
  · intro hstorage
    have hok : writeFault r v s = none := writeFault_eq_none v s (by rintro rfl; exact absurd hstorage (by decide))
    obtain ⟨g, hg⟩ := writeReg_storage_frame v s hstorage
    refine ⟨g, ?_, ?_, fun r' hne => ?_⟩
    · rw [exec_mmioWrite_ok hlive ha hr hok, hg]
    · rw [← hg]
      exact namedValue_writeReg_same v s hstorage hp (listedIn_of_regAt hr)
    · rw [← hg]
      exact namedValue_writeReg_other v s hstorage hne

/-! ### TABLE_CONTROL and TABLE_WORDk (R122, R123) -/

/-- ENTRY_POINTER is bits 30..0 of the value (R38). -/
theorem entryPointer_eq (v : Word) : entryPointer v = (v &&& 0x7FFFFFFF).toNat := by
  simpa [entryPointer] using (Nat.and_two_pow_sub_one_eq_mod v.toNat 31).symm

/-- Settles O17: the index at or above N is the fault of `writeFault`, and below N WRITE decides between the commit and
the select. -/
theorem mmioTableControlSelectsOrCommits : Obligations.MmioTableControlSelectsOrCommits := by
  intro s off v hlive ha hr
  simp only [← entryPointer_eq]
  by_cases hn : s.cfg.n ≤ entryPointer v
  · have hfault : writeFault .tableControl v s = some .tableIndex := if_pos hn
    rw [if_pos hn, exec_mmioWrite_fault hlive ha hr hfault]
    rfl
  · have hok : writeFault .tableControl v s = none := if_neg hn
    rw [if_neg hn, exec_mmioWrite_ok hlive ha hr hok]
    simp only [writeReg, writeTableControl, setEntry]
    split <;> rfl

/-- A write to TABLE_WORDk changes only TBLBUF; bit by bit, TBLBUF holds the value at bits 32k+31..32k and its old bits
elsewhere (R123). -/
theorem writeReg_tableWord {r : Reg} {k : Nat} (v : Word) (s : State)
    (hk : (r, k) ∈ [(Reg.tableWord2, 2), (.tableWord1, 1), (.tableWord0, 0)]) :
    ∃ b : Image, writeReg r v s = { s with tblBuf := b } ∧
      ∀ x, b.getLsbD x = if 32 * k ≤ x ∧ x < 32 * k + 32 then v.getLsbD (x - 32 * k) else s.tblBuf.getLsbD x := by
  simp only [List.mem_cons, Prod.mk.injEq, List.not_mem_nil, or_false] at hk
  obtain ⟨rfl, rfl⟩ | ⟨rfl, rfl⟩ | ⟨rfl, rfl⟩ := hk
  all_goals
    refine ⟨_, rfl, fun x => ?_⟩
    simp only [BitVec.getLsbD_append, BitVec.getLsbD_extractLsb']
    grind

/-- Settles O18: both clauses read off the bits of TBLBUF that the write leaves. -/
theorem mmioTableWordStagesOneWord : Obligations.MmioTableWordStagesOneWord := by
  intro s off v r k hlive ha hr hk
  have hok : writeFault r v s = none := writeFault_eq_none v s (by rintro rfl; simp at hk)
  obtain ⟨b, hwrite, hbits⟩ := writeReg_tableWord v s hk
  refine ⟨b, ?_, ?_, fun x hx => ?_⟩
  · rw [exec_mmioWrite_ok hlive ha hr hok, hwrite]
  · refine BitVec.eq_of_getLsbD_eq fun i hi => ?_
    simp [hbits, hi]
  · rw [hbits, if_neg hx]

/-! ### CONTROL (R124) -/

/-- The all-zero image is FREE, so an aging pass leaves it (R304). -/
theorem ageEntry_zero (rule : AgingPassRule) (d : Word) : ageEntry rule 0 d = 0 :=
  if_neg (show ¬ ageable 0 = true by decide)

/-- What an aging pass leaves of a cleared table. -/
theorem agingPass_entry_of_clear {s : State} (h : s.table = []) (j : Nat) :
    Table.entry (agingPass s).table j = 0 := by
  obtain ⟨d, hd⟩ := agingPass_entry s j
  rw [hd, h, Table.entry_nil, ageEntry_zero, ite_self]

/-- The entries after a write to CONTROL: cleared by CLEAR, else aged below N by AGEOUT, else kept. -/
theorem writeControl_entry (v : Word) (s : State) (j : Nat) :
    ∃ d, Table.entry (writeControl v s).table j =
      if v.getLsbD clearBit then 0
      else if v.getLsbD ageoutBit = true ∧ j < s.cfg.n then ageEntry s.cfg.agingPass (Table.entry s.table j) d
      else Table.entry s.table j := by
  cases hclear : v.getLsbD clearBit <;> cases hageout : v.getLsbD ageoutBit
  case false.false => exact ⟨0, by simp [writeControl, hclear, hageout]⟩
  case true.false => exact ⟨0, by simp [writeControl, hclear, hageout]⟩
  case false.true =>
    obtain ⟨d, hd⟩ := agingPass_entry (setRegs (fun g => { g with control := v &&& controlRw }) s) j
    refine ⟨d, ?_⟩
    simp only [writeControl, hclear, hageout, Bool.false_eq_true, if_false, if_true, true_and]
    exact hd
  case true.true => exact ⟨0, by simp [writeControl, hclear, hageout, agingPass_entry_of_clear]⟩

/-- CLEAR and AGEOUT are outside the RW fields, so they read 0 (R35). -/
theorem namedValue_control_of_stored {t : State} {v : Word} (h : t.regs.control = v &&& controlRw) :
    namedValue t .control = v &&& controlRw := by
  rw [namedValue, h, BitVec.and_assoc, BitVec.and_self]

/-- Settles O19: the frame of the write, and its table entry by entry. -/
theorem mmioControlStoresClearsAges : Obligations.MmioControlStoresClearsAges := by
  intro s off v hlive ha hr
  obtain ⟨tb, k, hframe⟩ := writeControl_frame v s
  refine ⟨tb, k, ?_, fun t ht => namedValue_control_of_stored ht, fun j => ?_⟩
  · rw [exec_mmioWrite_ok hlive ha hr rfl]
    exact congrArg Host.Outcome.next hframe
  · have hentry := writeControl_entry v s j
    rwa [hframe] at hentry

/-! ### AGING_TIMER (R125) -/

theorem regAt_ne_agingTimer {c : Cfg} (h : c.hasHwAutoaging = false) (off : Nat) : regAt c off ≠ some .agingTimer :=
  fun hr => Bool.false_ne_true (h.symm.trans (listedIn_of_regAt hr))

/-- Settles O20: the register is in the map by its flag alone, and a write loads both counters. -/
theorem mmioAgingTimerLoadsTheCounter : Obligations.MmioAgingTimerLoadsTheCounter := by
  refine ⟨fun c off h => regAt_ne_agingTimer h off, fun s off v hlive ha hr => ?_⟩
  rw [exec_mmioWrite_ok hlive ha hr rfl, ← BitVec.setWidth_eq_extractLsb' (by decide)]
  rfl

end Sys2Proof.Machine
end

section
/-! SUPPORT. The entry codec (R150 to R154): a field written and read back, its range, and the MAC address as bits 47..0
of an image. -/

namespace Sys2Proof.Machine

/-! ### Fields (R150, R151, R153) -/

theorem codecInRange_iff (s w : Nat) :
    codecInRange s w = true ↔ s < 96 ∧ 1 ≤ w ∧ w ≤ 32 ∧ s + w ≤ 96 := by
  simp [codecInRange, and_assoc]

/-- The bits of the value at and above the width are 0, and those below it are the ones stored. -/
theorem getField_setField {s w : Nat} (e : Image) {v : Word} (hr : codecInRange s w = true) (hv : v.toNat < 2 ^ w) :
    getField (setField e s w v) s w = v := by
  obtain ⟨-, -, -, hfit⟩ := (codecInRange_iff s w).1 hr
  refine BitVec.eq_of_getLsbD_eq fun i hi => ?_
  rw [getLsbD_getField, getLsbD_setField]
  by_cases hw : i < w
  · simp [hi, hw, show s + i < 96 by omega]
  · have hzero : v.getLsbD i = false :=
      Nat.testBit_lt_two_pow (hv.trans_le (Nat.pow_le_pow_right two_pos (not_lt.1 hw)))
    simp [hw, hzero]

theorem getLsbD_setField_outside {s w b : Nat} (e : Image) (v : Word) (hb : ¬ (s ≤ b ∧ b < s + w)) :
    (setField e s w v).getLsbD b = e.getLsbD b := by
  rw [getLsbD_setField, if_neg fun h => hb ⟨h.1, h.2.1⟩]

/-- Settles O8: inside the field the value's bits are stored, outside it the image's are kept. -/
theorem codecRoundTrip : Obligations.CodecRoundTrip :=
  fun e _ _ v hr hv => ⟨getField_setField e hr hv, fun _ hb => getLsbD_setField_outside e v hb⟩

/-- Settles O9: the checked calls ask the range before they compute. -/
theorem codecFaultsOutsideItsRange : Obligations.CodecFaultsOutsideItsRange := by
  intro e s w v
  constructor
  · intro hr
    exact ⟨if_pos hr, if_pos hr⟩
  · intro hr
    have hout : ¬ codecInRange s w = true := by simp [hr]
    exact ⟨if_neg hout, if_neg hout⟩

/-! ### MAC addresses (R154) -/

/-- An image with the first `n` octets of an address written. -/
def setOctets (e : Image) (m : Mac) (n : Nat) : Image :=
  (List.range n).foldl (fun e j => setField e (40 - 8 * j) 8 (macOctet m j)) e

theorem setOctets_succ (e : Image) (m : Mac) (n : Nat) :
    setOctets e m (n + 1) = setField (setOctets e m n) (40 - 8 * n) 8 (macOctet m n) := by
  simp [setOctets, List.range_succ]

theorem getLsbD_macOctet (m : Mac) (j : Nat) {i : Nat} (hi : i < 8) :
    (macOctet m j).getLsbD i = m.getLsbD (40 - 8 * j + i) := by
  simp [macOctet, hi, show i < 32 by omega]

/-- Each octet written moves the boundary between the address and the old image down by 8 bits. -/
theorem getLsbD_setOctets (e : Image) (m : Mac) {n : Nat} (hn : n ≤ 6) (b : Nat) :
    (setOctets e m n).getLsbD b = if 48 - 8 * n ≤ b ∧ b < 48 then m.getLsbD b else e.getLsbD b := by
  induction n with
  | zero => rw [if_neg (by omega)]; rfl
  | succ n ih =>
    rw [setOctets_succ, getLsbD_setField, ih (by omega)]
    by_cases hoctet : 40 - 8 * n ≤ b ∧ b < 40 - 8 * n + 8
    · rw [if_pos (by omega), if_pos (by omega), getLsbD_macOctet m n (by omega)]
      congr 1
      omega
    · rw [if_neg (by omega)]
      exact if_congr (by omega) rfl rfl

/-- SetAddr writes exactly bits 47..0. -/
theorem getLsbD_setAddr (e : Image) (m : Mac) (b : Nat) :
    (setAddr e m).getLsbD b = if b < 48 then m.getLsbD b else e.getLsbD b := by
  change (setOctets e m 6).getLsbD b = _
  simp [getLsbD_setOctets e m le_rfl]

theorem addrOctetOf_eq (e : Image) (j : Nat) : addrOctetOf e j = e.extractLsb' (40 - 8 * j) 8 := by
  refine BitVec.eq_of_getLsbD_eq fun i hi => ?_
  rw [addrOctetOf, BitVec.getLsbD_setWidth, getLsbD_getField, BitVec.getLsbD_extractLsb']
  simp [hi, show i < 32 by omega]

/-- The six octets are adjacent, so they are one run of bits. -/
theorem getAddr_eq (e : Image) : getAddr e = e.extractLsb' 0 48 := by
  refine BitVec.eq_of_getLsbD_eq fun b hb => ?_
  simp only [getAddr, addrOctetOf_eq, BitVec.getLsbD_append, BitVec.getLsbD_extractLsb']
  grind

theorem getAddr_setAddr (e : Image) (m : Mac) : getAddr (setAddr e m) = m := by
  rw [getAddr_eq]
  refine BitVec.eq_of_getLsbD_eq fun b hb => ?_
  simp [getLsbD_setAddr, hb]

/-- Settles O10: SetAddr bit by bit, and GetAddr as the run of bits it reads. -/
theorem macAddressRoundTrip : Obligations.MacAddressRoundTrip := by
  refine fun e m => ⟨getAddr_setAddr e m, getAddr_eq e, fun b hb => ?_⟩
  rw [getLsbD_setAddr, if_neg (by omega)]

end Sys2Proof.Machine
end

section
/-! SUPPORT. The table port (R155, R156, R160 to R163): the commands' table accesses as register accesses, and what
TBL_READ, TBL_WRITE, DUMP and RESTORE answer. -/

namespace Sys2Proof.Machine

/-! ### The register sequences (R155, R156) -/

/-- An index that ENTRY_POINTER can hold is the index that a value with it names, whatever the value's WRITE bit
(R38). -/
theorem entryPointer_or_ofNat {w : Word} (hw : w.extractLsb' 0 31 = 0) {i : Nat} (hi : i < 2 ^ 31) :
    entryPointer (w ||| BitVec.ofNat 32 i) = i := by
  have hlow : (BitVec.ofNat 32 i).extractLsb' 0 31 = BitVec.ofNat 31 i := by
    simp [← BitVec.setWidth_eq_extractLsb']
  rw [entryPointer, BitVec.extractLsb'_or, hw, hlow]
  simpa using hi

/-- An index that ENTRY_POINTER can hold leaves WRITE clear (R38). -/
theorem getLsbD_ofNat_write {i : Nat} (hi : i < 2 ^ 31) : (BitVec.ofNat 32 i).getLsbD 31 = false := by
  simp only [BitVec.getLsbD_ofNat, Nat.testBit_lt_two_pow hi, Bool.and_false]

/-- The write of an index alone selects the entry (R122). -/
theorem writeReg_tableControl_select {i : Nat} (s : State) (hi : i < 2 ^ 31) :
    writeReg .tableControl (BitVec.ofNat 32 i) s = { s with tblBuf := Table.entry s.table i } := by
  have hptr : entryPointer (BitVec.ofNat 32 i) = i := by simpa using entryPointer_or_ofNat (w := 0) rfl hi
  rw [writeReg, writeTableControl, getLsbD_ofNat_write hi, hptr, if_neg Bool.false_ne_true]

/-- The write of an index with WRITE = 1 commits TBLBUF to the entry (R122). -/
theorem writeReg_tableControl_commit {i : Nat} (s : State) (hi : i < 2 ^ 31) :
    writeReg .tableControl (0x80000000 ||| BitVec.ofNat 32 i) s = setEntry i s.tblBuf s := by
  have hptr : entryPointer (0x80000000 ||| BitVec.ofNat 32 i) = i := entryPointer_or_ofNat (by decide) hi
  have hwrite : ((0x80000000 : Word) ||| BitVec.ofNat 32 i).getLsbD 31 = true := by simp
  rw [writeReg, writeTableControl, hptr, if_pos hwrite]

/-- W2, W1 and W0 of an image, joined, are the image (R63). -/
theorem append_imageWords (e : Image) :
    e.extractLsb' 64 32 ++ e.extractLsb' 32 32 ++ e.extractLsb' 0 32 = e := by
  have hhigh : e.extractLsb' 64 32 ++ e.extractLsb' 32 32 = e.extractLsb' 32 64 :=
    BitVec.extractLsb'_append_extractLsb'_eq_extractLsb' rfl
  have hall : e.extractLsb' 32 64 ++ e.extractLsb' 0 32 = e.extractLsb' 0 96 :=
    BitVec.extractLsb'_append_extractLsb'_eq_extractLsb' rfl
  rw [hhigh, hall, BitVec.extractLsb'_eq_self]

/-- Staging the three words of an image leaves TBLBUF holding it (R123). -/
theorem writeReg_tableWords (e : Image) (s : State) :
    writeReg .tableWord0 (e.extractLsb' 0 32) (writeReg .tableWord1 (e.extractLsb' 32 32)
      (writeReg .tableWord2 (e.extractLsb' 64 32) s)) = { s with tblBuf := e } := by
  obtain ⟨b₂, hwrite₂, hbits₂⟩ := writeReg_tableWord (r := .tableWord2) (k := 2) (e.extractLsb' 64 32)
    s (by decide)
  obtain ⟨b₁, hwrite₁, hbits₁⟩ := writeReg_tableWord (r := .tableWord1) (k := 1) (e.extractLsb' 32 32)
    { s with tblBuf := b₂ } (by decide)
  obtain ⟨b₀, hwrite₀, hbits₀⟩ := writeReg_tableWord (r := .tableWord0) (k := 0) (e.extractLsb' 0 32)
    { s with tblBuf := b₁ } (by decide)
  have hstaged : b₀ = e := BitVec.eq_of_getLsbD_eq fun x hx => by
    simp only [hbits₀, hbits₁, hbits₂, BitVec.getLsbD_extractLsb']
    grind
  rw [hwrite₂, hwrite₁, hwrite₀, hstaged]

/-- Settles O12: the words read back are those of the selected entry, and the words written are those committed. -/
theorem tablePortIsTheRegisterSequence : Obligations.TablePortIsTheRegisterSequence := by
  intro i e s hi
  constructor
  · simp only [writeReg_tableControl_select s hi, namedValue, append_imageWords]
    rfl
  · rw [writeReg_tableWords, writeReg_tableControl_commit _ hi]
    rfl

/-! ### TBL_READ and TBL_WRITE (R160, R161) -/

/-- The command answers the index it was given. -/
theorem setIndex_toNat (idx : Word) (s : State) :
    setIndex idx.toNat s = { s with res := { s.res with index := some idx } } := by
  simp [setIndex, setRes]

theorem exec_tblRead {s : State} {idx : Word} (hlive : Live s) (hidx : s.a.value = some idx) :
    exec .tblRead s =
      if idx.toNat < s.cfg.n then
        complete .ok (setIndex idx.toNat (setImg (tblRead idx.toNat s).1 (tblRead idx.toNat s).2))
      else faultOutcome .tableIndex s := by
  change execTblRead s = _
  rw [execTblRead, whenCreated_live s _ hlive, hidx, withArg_some]
  simp only [indexFault, decide_eq_true_eq, ← not_lt, ite_not]

theorem exec_tblWrite {s : State} {idx : Word} {e : Image} (hlive : Live s) (hidx : s.a.value = some idx)
    (himg : s.a.img = some e) :
    exec .tblWrite s =
      if idx.toNat < s.cfg.n then complete .ok (setIndex idx.toNat (tblWrite idx.toNat e s))
      else faultOutcome .tableIndex s := by
  change execTblWrite s = _
  rw [execTblWrite, whenCreated_live s _ hlive, hidx, withArg_some, himg, withArg_some]
  simp only [indexFault, decide_eq_true_eq, ← not_lt, ite_not]

/-- Settles O21: R23 is `undefinedArgumentFaults`, and below N the select answers the entry. -/
theorem tblReadAnswersTheEntry : Obligations.TblReadAnswersTheEntry := by
  refine fun s hlive => ⟨fun hnone => ?_, fun idx hidx => ?_⟩
  · exact undefinedArgumentFaults .tblRead s hlive (by simp [argsDefined, hnone])
  · rw [exec_tblRead hlive hidx, setIndex_toNat]
    rfl

/-- Settles O22: R23 is `undefinedArgumentFaults`, and below N the commit writes the image. -/
theorem tblWriteWritesTheEntry : Obligations.TblWriteWritesTheEntry := by
  refine fun s hlive => ⟨fun hnone => ?_, fun idx e hidx himg => ?_⟩
  · refine undefinedArgumentFaults .tblWrite s hlive ?_
    obtain hvalue | himg := hnone
    · simp [argsDefined, hvalue]
    · simp [argsDefined, himg]
  · rw [exec_tblWrite hlive hidx himg, setIndex_toNat]
    rfl

/-! ### DUMP and RESTORE alone (R162, R163) -/

/-- Alone, the loop of DUMP answers the words of the entries it visits, and changes TBLBUF only. -/
theorem dumpFrom_alone (n i : Nat) (s : State) (hs : Alone s) :
    ∃ b, dumpFrom n i s =
      ((List.range' i n).flatMap fun j => imageWords (Table.entry s.table j), { s with tblBuf := b }) := by
  induction n generalizing i s with
  | zero => exact ⟨s.tblBuf, rfl⟩
  | succ n ih =>
    obtain ⟨b, hb⟩ := ih (i + 1) { s with tblBuf := Table.entry s.table i } hs
    exact ⟨b, by simp only [dumpFrom, tblRead_alone i s hs, hb, List.range'_succ, List.flatMap_cons]⟩

/-- Settles O23: the loop over the whole table. -/
theorem dumpAnswersTheTable : Obligations.DumpAnswersTheTable := by
  rintro s ⟨hlive, hs⟩
  obtain ⟨b, hb⟩ := dumpFrom_alone s.cfg.n 0 s hs
  refine ⟨b, ?_⟩
  change execDump s = _
  rw [execDump, whenCreated_live s _ hlive, hb, ← List.range_eq_range']
  rfl

/-- The image that words 3k, 3k+1 and 3k+2 of a buffer hold, W2 first (R63, R163). -/
def bufferImage (ws : List Word) (k : Nat) : Image :=
  (ws[3 * k]?).getD 0 ++ (ws[3 * k + 1]?).getD 0 ++ (ws[3 * k + 2]?).getD 0

theorem bufferImage_cons_zero (w₂ w₁ w₀ : Word) (ws : List Word) :
    bufferImage (w₂ :: w₁ :: w₀ :: ws) 0 = w₂ ++ w₁ ++ w₀ := rfl

theorem bufferImage_cons_succ (w₂ w₁ w₀ : Word) (ws : List Word) (k : Nat) :
    bufferImage (w₂ :: w₁ :: w₀ :: ws) (k + 1) = bufferImage ws k := rfl

/-- Alone, the loop of RESTORE over the words of `n` entries writes those entries from index `i` on, and changes nothing
else but TBLBUF. -/
theorem restoreFrom_alone (ws : List Word) (n i : Nat) (s : State) (hs : Alone s) (hws : ws.length = 3 * n) :
    ∃ tb b, restoreFrom ws i s = { s with table := tb, tblBuf := b } ∧
      ∀ j, Table.entry tb j = if i ≤ j ∧ j < i + n then bufferImage ws (j - i) else Table.entry s.table j := by
  induction ws, i, s using restoreFrom.induct generalizing n with
  | case1 w₂ w₁ w₀ ws i s ih =>
    obtain ⟨m, rfl⟩ : ∃ m, n = m + 1 := ⟨n - 1, by simp at hws; omega⟩
    rw [tblWrite_alone i _ s hs] at ih
    obtain ⟨tb, b, hrun, hentry⟩ := ih m hs (by simp at hws; omega)
    refine ⟨tb, b, ?_, fun j => ?_⟩
    · rw [restoreFrom, tblWrite_alone i _ s hs, hrun]
      rfl
    · rw [hentry, commitEntry_table, Table.entry_store]
      obtain hj | rfl | hj := lt_trichotomy j i
      · rw [if_neg (by omega), if_neg (by omega), if_neg (by omega)]
      · rw [if_neg (by omega), if_pos rfl, if_pos (by omega), Nat.sub_self, bufferImage_cons_zero]
      · rw [if_neg hj.ne', show j - i = j - (i + 1) + 1 by omega, bufferImage_cons_succ]
        exact if_congr (by omega) rfl rfl
  | case2 i s =>
    obtain rfl : n = 0 := by simpa using hws
    exact ⟨s.table, s.tblBuf, rfl, fun j => by rw [if_neg (by omega)]⟩
  | case3 | case4 => simp at hws; omega

theorem exec_restore {s : State} {ws : List Word} (hlive : Live s) (hbuf : s.a.buf = some ws) :
    exec .restore s =
      if ws.length = 3 * s.cfg.n then complete .ok (restoreFrom ws 0 s) else complete .invalidArgument s := by
  change execRestore s = _
  rw [execRestore, whenCreated_live s _ hlive, hbuf, withArg_some]

/-- Settles O24: the length decides, and a whole buffer is written entry by entry. -/
theorem restoreWritesTheTable : Obligations.RestoreWritesTheTable := by
  rintro s ws ⟨hlive, hs⟩ hbuf
  constructor
  · intro hlen
    rw [exec_restore hlive hbuf, if_neg hlen]
    rfl
  · intro hlen
    obtain ⟨tb, b, hrun, hentry⟩ := restoreFrom_alone ws s.cfg.n 0 s hs hlen
    refine ⟨tb, b, ?_, fun j => ?_⟩
    · rw [exec_restore hlive hbuf, if_pos hlen, hrun]
      rfl
    · simpa [bufferImage] using hentry j

end Sys2Proof.Machine
end

section
/-! SUPPORT. The searches (R180 to R188): the entry predicates as bits of the image, and what MATCH_UCAST, MATCH_VLAN,
MATCH_FREE and FIND_AGEABLE answer. -/

namespace Sys2Proof.Machine

/-! ### The entry predicates in bits (R181 to R183) -/

theorem getField_one (e : Image) (s : Nat) : getField e s 1 = flagWord (e.getLsbD s) := by
  refine BitVec.eq_of_getLsbD_eq fun i hi => ?_
  rw [getLsbD_getField, flagWord, BitVec.getLsbD_setWidth, BitVec.getLsbD_ofBool]
  by_cases hz : i = 0
  · simp [hz]
  · simp [hz]

theorem getField_two (e : Image) (s : Nat) :
    getField e s 2 = (BitVec.ofBool (e.getLsbD (s + 1)) ++ BitVec.ofBool (e.getLsbD s)).setWidth 32 := by
  refine BitVec.eq_of_getLsbD_eq fun i hi => ?_
  rw [getLsbD_getField, BitVec.getLsbD_setWidth, BitVec.getLsbD_append]
  obtain rfl | rfl | h2 : i = 0 ∨ i = 1 ∨ 2 ≤ i := by omega
  · simp
  · simp
  · simp [show ¬ i < 2 by omega, show ¬ i < 1 by omega, show i - 1 ≠ 0 by omega]

/-- The codes of R30, read off the two bits of TYPE. -/
theorem entryType_eq (e : Image) :
    entryType e =
      if e.getLsbD 60 then (if e.getLsbD 61 then .vlanAddr else .addr)
      else if e.getLsbD 61 then .vlan else .free := by
  rw [entryType, getField_two]
  cases e.getLsbD 60 <;> cases e.getLsbD 61 <;> rfl

/-- The codes of R32, read off the two bits of UCAST_TYPE. -/
theorem ucastType_eq (e : Image) :
    ucastType e =
      if e.getLsbD 62 then (if e.getLsbD 63 then .touched else .untouched)
      else if e.getLsbD 63 then .oui else .persistent := by
  rw [ucastType, getField_two]
  cases e.getLsbD 62 <;> cases e.getLsbD 63 <;> rfl

theorem isAddr_eq (e : Image) : isAddr e = e.getLsbD 60 := by
  rw [isAddr, entryType_eq]
  cases e.getLsbD 60 <;> cases e.getLsbD 61 <;> rfl

theorem isVlan_eq (e : Image) : isVlan e = (e.getLsbD 61 && !e.getLsbD 60) := by
  rw [isVlan, entryType_eq]
  cases e.getLsbD 60 <;> cases e.getLsbD 61 <;> rfl

theorem isFree_eq (e : Image) : isFree e = (!e.getLsbD 61 && !e.getLsbD 60) := by
  rw [isFree, entryType_eq]
  cases e.getLsbD 60 <;> cases e.getLsbD 61 <;> rfl

theorem isMcast_eq (e : Image) : isMcast e = e.getLsbD 40 := by
  rw [isMcast, getField_one]
  cases e.getLsbD 40 <;> rfl

/-- Neither PERSISTENT nor OUI: the low bit of UCAST_TYPE is 1 (R32). -/
theorem ucastType_ages_eq (e : Image) :
    (!(ucastType e == .persistent) && !(ucastType e == .oui)) = e.getLsbD 62 := by
  rw [ucastType_eq]
  cases e.getLsbD 62 <;> cases e.getLsbD 63 <;> rfl

theorem ageable_eq (e : Image) : ageable e = (e.getLsbD 60 && !e.getLsbD 40 && e.getLsbD 62) := by
  rw [ageable, Bool.and_assoc, ucastType_ages_eq, isAddr_eq, isMcast_eq]

/-- Settles O11: each predicate asks a field of one or two bits. -/
theorem entryPredicatesInBits : Obligations.EntryPredicatesInBits :=
  fun e => ⟨isAddr_eq e, isVlan_eq e, isFree_eq e, isMcast_eq e, ageable_eq e⟩

/-! ### A scan alone, by what the table holds (R180) -/

theorem scan_alone_cases (pred : Image → Bool) {s : State} (hs : Alone s) :
    (∃ j, firstIndex pred s.cfg.n s.table = some j ∧
      scan pred s = (some (j, Table.entry s.table j), { s with tblBuf := Table.entry s.table j })) ∨
    (firstIndex pred s.cfg.n s.table = none ∧ ∃ b, scan pred s = (none, { s with tblBuf := b })) := by
  have hscan := scan_alone pred s hs
  cases hfirst : firstIndex pred s.cfg.n s.table with
  | some j => exact .inl ⟨j, rfl, by simpa only [hfirst] using hscan⟩
  | none => exact .inr ⟨rfl, by simpa only [hfirst] using hscan⟩

/-! ### MATCH_UCAST and MATCH_VLAN (R185, R186) -/

theorem exec_matchUcast {s : State} {addr : Mac} {vid : Vid} (hlive : Live s) (haddr : s.a.mac = some addr)
    (hvid : s.a.vid = some vid) :
    exec .matchUcast s = reportMatch (scan (addrMatches addr vid) s).1 (scan (addrMatches addr vid) s).2 := by
  change execMatchUcast s = _
  rw [execMatchUcast, whenCreated_live s _ hlive, haddr, withArg_some, hvid, withArg_some]
  rfl

theorem exec_matchVlan {s : State} {vid : Vid} (hlive : Live s) (hvid : s.a.vid = some vid) :
    exec .matchVlan s = reportMatch (scan (vlanMatches vid) s).1 (scan (vlanMatches vid) s).2 := by
  change execMatchVlan s = _
  rw [execMatchVlan, whenCreated_live s _ hlive, hvid, withArg_some]
  rfl

/-- Settles O25: both commands report one scan, which alone answers the first match. -/
theorem matchAnswersTheFirstMatch : Obligations.MatchAnswersTheFirstMatch := by
  rintro i s pred ⟨hlive, hs⟩ hi
  have hexec : exec i s = reportMatch (scan pred s).1 (scan pred s).2 := by
    obtain ⟨addr, vid, rfl, haddr, hvid, rfl⟩ | ⟨vid, rfl, hvid, rfl⟩ := hi
    · exact exec_matchUcast hlive haddr hvid
    · exact exec_matchVlan hlive hvid
  obtain ⟨j, hfirst, hscan⟩ | ⟨hnone, b, hscan⟩ := scan_alone_cases pred hs
  · rw [hfirst, hexec, hscan]
    rfl
  · rw [hnone, hexec, hscan]
    exact ⟨b, rfl⟩

/-! ### MATCH_FREE and FIND_AGEABLE (R187, R188) -/

theorem exec_matchFree {s : State} (hlive : Live s) :
    exec .matchFree s = reportIndex (scan isFree s).1 (scan isFree s).2 :=
  whenCreated_live s _ hlive

theorem exec_findAgeable {s : State} (hlive : Live s) :
    exec .findAgeable s = reportIndex (scan ageable s).1 (scan ageable s).2 :=
  whenCreated_live s _ hlive

/-- Settles O26: both commands report one scan, which alone answers the first index. -/
theorem findAnswersTheFirstIndex : Obligations.FindAnswersTheFirstIndex := by
  rintro i s pred ⟨hlive, hs⟩ hi
  have hexec : exec i s = reportIndex (scan pred s).1 (scan pred s).2 := by
    obtain ⟨rfl, rfl⟩ | ⟨rfl, rfl⟩ := hi
    · exact exec_matchFree hlive
    · exact exec_findAgeable hlive
  obtain ⟨j, hfirst, hscan⟩ | ⟨hnone, b, hscan⟩ := scan_alone_cases pred hs
  · rw [hfirst, hexec, hscan]
    rfl
  · rw [hnone, hexec, hscan]
    exact ⟨b, rfl⟩

end Sys2Proof.Machine
end

section
/-! SUPPORT. The images of address entries (R200, R201, R203): the setters and the two images bit by bit, and the fields
read off the bits. -/

namespace Sys2Proof.Machine

/-! ### Images bit by bit (R30 to R32, R200) -/

/-- A flag is a field of one bit. -/
theorem getLsbD_setField_flag (e : Image) {s : Nat} (f : Bool) (b : Nat) (hs : s < 96) :
    (setField e s 1 (flagWord f)).getLsbD b = if b = s then f else e.getLsbD b := by
  rw [getLsbD_setField]
  by_cases hb : b = s
  · simp [hb, hs, flagWord]
  · rw [if_neg hb, if_neg (by omega)]

theorem getVid_eq (e : Image) : getVid e = e.extractLsb' 48 12 := by
  refine BitVec.eq_of_getLsbD_eq fun i hi => ?_
  rw [getVid, BitVec.getLsbD_setWidth, getLsbD_getField, BitVec.getLsbD_extractLsb']
  simp [hi, show i < 32 by omega]

/-- SetVid writes exactly bits 59..48. -/
theorem getLsbD_setVid (e : Image) (vid : Vid) (b : Nat) :
    (setVid e vid).getLsbD b = if 48 ≤ b ∧ b < 60 then vid.getLsbD (b - 48) else e.getLsbD b := by
  rw [setVid, getLsbD_setField, BitVec.getLsbD_setWidth]
  grind

/-- The type of an address entry is TYPE[0] = 1, and TYPE[1] is the VLAN flag (R30). -/
theorem getLsbD_setType_addr (e : Image) (vlan : Bool) (b : Nat) :
    (setType e (if vlan then .vlanAddr else .addr)).getLsbD b =
      if b = 60 then true else if b = 61 then vlan else e.getLsbD b := by
  have hcode : entryTypeCode (if vlan then .vlanAddr else .addr) = (BitVec.ofBool vlan ++ 1#1).setWidth 32 := by
    cases vlan <;> rfl
  rw [setType, hcode, getLsbD_setField, BitVec.getLsbD_setWidth, BitVec.getLsbD_append]
  obtain rfl | rfl | hb : b = 60 ∨ b = 61 ∨ ¬ (60 ≤ b ∧ b < 60 + 2 ∧ b < 96) := by omega
  · rfl
  · simp
  · rw [if_neg hb, if_neg (by omega), if_neg (by omega)]

/-- SetScope writes TYPE, and VID when VLAN = 1 (R200). -/
theorem getLsbD_setScope (e : Image) (vlan : Bool) (vid : Vid) (b : Nat) :
    (setScope e vlan vid).getLsbD b =
      if b = 60 then true else if b = 61 then vlan
      else if vlan = true ∧ 48 ≤ b ∧ b < 60 then vid.getLsbD (b - 48) else e.getLsbD b := by
  have htype := getLsbD_setType_addr e vlan b
  cases vlan with
  | false => simpa [setScope] using htype
  | true =>
    simp only [setScope, if_true] at htype ⊢
    rw [getLsbD_setVid, htype]
    grind

/-- The image of R201, bit by bit. -/
theorem getLsbD_ucastImage (c : Cfg) (vlan secure blocked : Bool) (port : BitVec 5) (addr : Mac) (vid : Vid) (b : Nat) :
    (ucastImage c vlan secure blocked port addr vid).getLsbD b =
      if b < 48 then addr.getLsbD b
      else if b < 60 then vlan && vid.getLsbD (b - 48)
      else if b = 60 then true
      else if b = 61 then vlan
      else if b < 64 then false
      else if b = 64 then secure
      else if b = 65 then blocked
      else decide (b < 66 + pnb c) && port.getLsbD (b - 66) := by
  have hport (h : 71 ≤ b) : port.getLsbD (b - 66) = false := BitVec.getLsbD_of_ge _ _ (by omega)
  simp only [ucastImage, setF, fieldStart, fieldWidth]
  rw [getLsbD_setField, getLsbD_setField_flag _ _ _ (by decide), getLsbD_setField_flag _ _ _ (by decide), setUcastType,
    getLsbD_setField, getLsbD_setAddr, getLsbD_setScope]
  simp only [ucastTypeCode, BitVec.ofNat_eq_ofNat, BitVec.getLsbD_zero, BitVec.getLsbD_setWidth]
  grind

/-- The image of R203, bit by bit: what R203 does not write is the old image's. -/
theorem getLsbD_mcastImage {c : Cfg} (old : Image) (vlan super : Bool) (mstate : BitVec 2) (addr : Mac) (vid : Vid)
    (mask : Word) (b : Nat) (hp : c.p ≤ 20) :
    (mcastImage c old vlan super mstate addr vid mask).getLsbD b =
      if b < 48 then addr.getLsbD b
      else if b < 60 then if vlan then vid.getLsbD (b - 48) else old.getLsbD b
      else if b = 60 then true
      else if b = 61 then vlan
      else if b < 64 then mstate.getLsbD (b - 62)
      else if b = 65 then super
      else old.getLsbD b || (decide (66 ≤ b) && decide (b < 66 + c.p) && mask.getLsbD (b - 66)) := by
  simp only [mcastImage, setF, getF, fieldStart, fieldWidth, pmb]
  rw [getLsbD_setField, BitVec.getLsbD_or, getLsbD_getField]
  simp only [getLsbD_setField_flag _ _ _ (show 65 < 96 by decide), getLsbD_setField, getLsbD_setAddr, getLsbD_setScope,
    BitVec.getLsbD_setWidth]
  grind

theorem entryType_of_bits {e : Image} {vlan : Bool} (h60 : e.getLsbD 60 = true) (h61 : e.getLsbD 61 = vlan) :
    entryType e = if vlan then .vlanAddr else .addr := by
  rw [entryType_eq, h60, h61, if_pos rfl]

theorem getVid_of_bits {e : Image} {vid : Vid} (h : ∀ i < 12, e.getLsbD (48 + i) = vid.getLsbD i) :
    getVid e = vid := by
  rw [getVid_eq]
  exact BitVec.eq_of_getLsbD_eq fun i hi => by simp [hi, h i hi]

theorem getAddr_of_bits {e : Image} {addr : Mac} (h : ∀ b < 48, e.getLsbD b = addr.getLsbD b) : getAddr e = addr := by
  rw [getAddr_eq]
  exact BitVec.eq_of_getLsbD_eq fun b hb => by simp [hb, h b hb]

theorem getField_of_bits {e : Image} {s w : Nat} {v : Word}
    (h : ∀ i < 32, (decide (i < w) && e.getLsbD (s + i)) = v.getLsbD i) : getField e s w = v :=
  BitVec.eq_of_getLsbD_eq fun i hi => by rw [getLsbD_getField, decide_eq_true hi, Bool.true_and, h i hi]

/-! ### The fields of the images (R201, R203) -/

theorem pmax_le (l : Layout) : pmax l ≤ 20 := by cases l <;> decide

theorem p_le_of_cfgWf {c : Cfg} (h : cfgWf c = true) : c.p ≤ 20 := by
  simp only [cfgWf, Bool.and_eq_true, decide_eq_true_eq] at h
  obtain ⟨⟨⟨⟨⟨⟨-, hp⟩, -⟩, -⟩, -⟩, -⟩, -⟩ := h
  exact hp.trans (pmax_le c.layout)

/-- A port below P fits PORT_NUM (R5). -/
theorem port_lt_two_pow_pnb {c : Cfg} {port : Nat} (h : port < c.p) : port < 2 ^ pnb c :=
  (Nat.le_sub_one_of_lt h).trans_lt Nat.lt_log2_self

/-- Settles O27: each field is read off the bits of the image, and PORT_NUM is wide enough for the port. -/
theorem ucastImageFields : Obligations.UcastImageFields := by
  intro c vlan secure blocked port addr vid _ hport e
  have hbit : ∀ b, e.getLsbD b = _ := getLsbD_ucastImage c vlan secure blocked port addr vid
  have hwide (i : Nat) (hi : pnb c ≤ i) : port.getLsbD i = false :=
    Nat.testBit_lt_two_pow ((port_lt_two_pow_pnb hport).trans_le (Nat.pow_le_pow_right two_pos hi))
  refine ⟨entryType_of_bits (hbit 60) (hbit 61), getVid_of_bits fun i hi => ?_, getAddr_of_bits fun b hb => ?_, ?_,
    hbit 64, hbit 65, getField_of_bits fun i hi => ?_, fun b hb => ?_⟩
  · rw [hbit]
    cases vlan <;> simp [show 48 + i < 60 by omega]
  · rw [hbit, if_pos hb]
  · rw [ucastType_eq, hbit, hbit]
    rfl
  · rw [hbit, BitVec.getLsbD_setWidth]
    grind [fieldStart, fieldWidth]
  · rw [hbit]
    grind

/-- Settles O30: each field is read off the bits of the image, and the mask lies within PORT_MASK. -/
theorem mcastImageFields : Obligations.McastImageFields := by
  intro c old vlan super mstate addr vid mask hc hmask e
  have hp := p_le_of_cfgWf hc
  have hbit : ∀ b, e.getLsbD b = _ := fun b => getLsbD_mcastImage old vlan super mstate addr vid mask b hp
  have hwide (i : Nat) (hi : c.p ≤ i) : mask.getLsbD i = false := by
    have hout : (mask &&& ~~~portMaskAll c).getLsbD i = false := by rw [hmask]; exact BitVec.getLsbD_zero
    rw [BitVec.getLsbD_and, BitVec.getLsbD_not, portMaskAll, getLsbD_maskWord] at hout
    grind
  refine ⟨entryType_of_bits (hbit 60) (hbit 61), getVid_of_bits fun i hi => ?_, getAddr_of_bits fun b hb => ?_,
    hbit 65, getField_of_bits fun i hi => ?_, getField_of_bits fun i hi => ?_, ?_, fun b hb => ?_⟩
  · rw [hbit]
    cases vlan <;> simp [hi, getVid_eq, show 48 + i < 60 by omega]
  · rw [hbit, if_pos hb]
  · rw [hbit, BitVec.getLsbD_setWidth]
    grind [fieldStart, fieldWidth]
  · rw [hbit, BitVec.getLsbD_or, getF, getLsbD_getField]
    grind [fieldStart, fieldWidth, pmb]
  · rw [hbit]
    simp
  · rw [hbit]
    grind

end Sys2Proof.Machine
end

section
/-! SUPPORT. The address entry commands alone (R201 to R205): what the scan, the allocation, the write and the loop over
the table come to, and what ADD_UCAST, DEL_UCAST, ADD_MCAST, DEL_MCAST and FLUSH_MCAST answer. -/

namespace Sys2Proof.Machine

/-! ### The scan, the allocation and the write alone (R189, R201) -/

/-- Alone, a scan answers the index that the table gives, and changes TBLBUF only. -/
theorem indexOf_scan_alone (pred : Image → Bool) {s : State} (hs : Alone s) :
    ∃ b, indexOf (scan pred s).1 = firstIndex pred s.cfg.n s.table ∧ (scan pred s).2 = { s with tblBuf := b } := by
  obtain ⟨j, hfirst, hscan⟩ | ⟨hnone, b, hscan⟩ := scan_alone_cases pred hs
  · exact ⟨_, by rw [hscan, hfirst]; rfl, by rw [hscan]⟩
  · exact ⟨b, by rw [hscan, hnone]; rfl, by rw [hscan]⟩

/-- Alone, the allocation after the scan for the match answers the slot of R189. -/
theorem alloc_firstIndex_alone (pred : Image → Bool) {s : State} (hs : Alone s) :
    ∃ b, alloc (firstIndex pred s.cfg.n s.table) s = (slotFor pred s.cfg.n s.table, { s with tblBuf := b }) :=
  alloc_alone (firstIndex pred s.cfg.n s.table) s hs

/-- The image at the first match, 0 without one: what ADD_MCAST builds on (R203). -/
def matchedImage (pred : Image → Bool) (s : State) : Image :=
  match firstIndex pred s.cfg.n s.table with
  | some j => Table.entry s.table j
  | none => 0

theorem existingImage_alone (pred : Image → Bool) {s : State} (hs : Alone s) :
    ∃ b, existingImage (firstIndex pred s.cfg.n s.table) s = (matchedImage pred s, { s with tblBuf := b }) := by
  unfold matchedImage
  cases firstIndex pred s.cfg.n s.table with
  | some j => exact ⟨_, tblRead_alone j s hs⟩
  | none => exact ⟨s.tblBuf, rfl⟩

/-- What an add command leaves of `s` with the image `e` for the slot: the image there and its index, or
ResourceExhausted with nothing written (R201, R203). -/
def Added (slot : Option Nat) (e : Image) (s : State) (o : Host.Outcome State Fault Refusal) : Prop :=
  match slot with
  | some j => o = .next { s with
      table := Table.store s.table j e
      tblBuf := e
      res := { s.res with status := 0, index := some (BitVec.ofNat 32 j) } }
  | none => ∃ b, o = .next { s with tblBuf := b, res := { s.res with status := 3 } }

/-- Alone, a command that ends by writing an entry and answering its index. -/
theorem completeWrite_alone (i : Nat) (e b : Image) {s : State} (hs : Alone s) :
    complete .ok (setIndex i (tblWrite i e { s with tblBuf := b })) = .next { s with
      table := Table.store s.table i e
      tblBuf := e
      res := { s.res with status := 0, index := some (BitVec.ofNat 32 i) } } := by
  rw [tblWrite_alone i e { s with tblBuf := b } hs]
  rfl

theorem writeAlloc_alone (slot : Option Nat) (e b : Image) {s : State} (hs : Alone s) :
    Added slot e s (writeAlloc slot e { s with tblBuf := b }) := by
  cases slot with
  | some j => exact completeWrite_alone j e b hs
  | none => exact ⟨b, rfl⟩

/-! ### ADD_UCAST and ADD_MCAST (R201, R203) -/

theorem exec_addUcast {s : State} {vlan secure blocked : Bool} {port : BitVec 5} {addr : Mac} {vid : Vid}
    (hlive : Live s) (hmac : s.a.mac = some addr) (hvid : scopedVid vlan s = some vid) :
    exec (.addUcast vlan secure blocked port) s =
      if portOk s.cfg port then
        let found := scan (addrMatches addr vid) s
        let slot := alloc (indexOf found.1) found.2
        writeAlloc slot.1 (ucastImage s.cfg vlan secure blocked port addr vid) slot.2
      else complete .invalidArgument s := by
  change execAddUcast vlan secure blocked port s = _
  rw [execAddUcast, whenCreated_live s _ hlive, hmac, withArg_some, hvid, withArg_some]
  rfl

/-- Settles O28: the port decides, and then the slot of R189 decides. -/
theorem addUcastWritesTheEntry : Obligations.AddUcastWritesTheEntry := by
  rintro s vlan secure blocked port addr vid ⟨hlive, hs⟩ hmac hvid
  rw [exec_addUcast hlive hmac hvid]
  simp only [portOk, decide_eq_true_eq]
  split
  · obtain ⟨b, hfound, hscan⟩ := indexOf_scan_alone (addrMatches addr vid) hs
    obtain ⟨b', halloc⟩ := alloc_firstIndex_alone (addrMatches addr vid) (s := { s with tblBuf := b }) hs
    rw [hfound, hscan, halloc]
    exact writeAlloc_alone _ _ b' hs
  · rfl

theorem exec_addMcast {s : State} {vlan super : Bool} {mstate : BitVec 2} {addr : Mac} {mask : Word} {vid : Vid}
    (hlive : Live s) (hmac : s.a.mac = some addr) (hmask : s.a.mask0 = some mask) (hvid : scopedVid vlan s = some vid) :
    exec (.addMcast vlan super mstate) s =
      let found := scan (addrMatches addr vid) s
      let old := existingImage (indexOf found.1) found.2
      let e := mcastImage old.2.cfg old.1 vlan super mstate addr vid (portMask old.2.cfg mask)
      let slot := alloc (indexOf found.1) old.2
      writeAlloc slot.1 e slot.2 := by
  change execAddMcast vlan super mstate s = _
  rw [execAddMcast, whenCreated_live s _ hlive, hmac, withArg_some, hmask, withArg_some, hvid, withArg_some]
  rfl

/-- Settles O31: the image is built on the first match, which the allocation then takes. -/
theorem addMcastWritesTheEntry : Obligations.AddMcastWritesTheEntry := by
  rintro s vlan super mstate addr mask vid ⟨hlive, hs⟩ hmac hmask hvid
  obtain ⟨b, hfound, hscan⟩ := indexOf_scan_alone (addrMatches addr vid) hs
  obtain ⟨b', hold⟩ := existingImage_alone (addrMatches addr vid) (s := { s with tblBuf := b }) hs
  obtain ⟨b'', halloc⟩ := alloc_firstIndex_alone (addrMatches addr vid) (s := { s with tblBuf := b' }) hs
  rw [exec_addMcast hlive hmac hmask hvid]
  simp only [hfound, hscan]
  rw [hold, halloc]
  exact writeAlloc_alone _ _ b'' hs

/-! ### DEL_UCAST and DEL_MCAST (R202, R204) -/

theorem exec_delUcast {s : State} {vlan : Bool} {addr : Mac} {vid : Vid} (hlive : Live s)
    (hmac : s.a.mac = some addr) (hvid : scopedVid vlan s = some vid) :
    exec (.delUcast vlan) s =
      match scan (addrMatches addr vid) s with
      | (none, s) => complete .notFound s
      | (some (i, _), s) => complete .ok (setIndex i (tblWrite i 0 s)) := by
  change execDelUcast vlan s = _
  rw [execDelUcast, whenCreated_live s _ hlive, hmac, withArg_some, hvid, withArg_some]
  rfl

/-- Settles O29: the scan answers the first match, which is overwritten. -/
theorem delUcastFreesTheMatch : Obligations.DelUcastFreesTheMatch := by
  rintro s vlan addr vid ⟨hlive, hs⟩ hmac hvid
  rw [exec_delUcast hlive hmac hvid]
  obtain ⟨j, hfirst, hscan⟩ | ⟨hnone, b, hscan⟩ := scan_alone_cases (addrMatches addr vid) hs
  · rw [hfirst, hscan]
    exact completeWrite_alone j 0 _ hs
  · rw [hnone, hscan]
    exact ⟨b, rfl⟩

theorem exec_delMcast {s : State} {vlan : Bool} {addr : Mac} {mask : Word} {vid : Vid} (hlive : Live s)
    (hmac : s.a.mac = some addr) (hmask : s.a.mask0 = some mask) (hvid : scopedVid vlan s = some vid) :
    exec (.delMcast vlan) s =
      match scan (addrMatches addr vid) s with
      | (none, s) => complete .notFound s
      | (some (i, _), s) =>
        let read := tblRead i s
        complete .ok (setIndex i (tblWrite i (removePorts read.2.cfg read.1 (portMask read.2.cfg mask)) read.2)) := by
  change execDelMcast vlan s = _
  rw [execDelMcast, whenCreated_live s _ hlive, hmac, withArg_some, hmask, withArg_some, hvid, withArg_some]
  rfl

/-- Settles O32: the first match is read again and overwritten by what `removePorts` leaves. -/
theorem delMcastRemovesPorts : Obligations.DelMcastRemovesPorts := by
  rintro s vlan addr mask vid ⟨hlive, hs⟩ hmac hmask hvid
  rw [exec_delMcast hlive hmac hmask hvid]
  obtain ⟨j, hfirst, hscan⟩ | ⟨hnone, b, hscan⟩ := scan_alone_cases (addrMatches addr vid) hs
  · rw [hfirst, hscan]
    have hread := tblRead_alone j { s with tblBuf := Table.entry s.table j } hs
    refine ⟨removePorts s.cfg (Table.entry s.table j) (portMask s.cfg mask), ?_, rfl⟩
    simp only [hread]
    exact completeWrite_alone j _ _ hs
  · rw [hnone, hscan]
    exact ⟨b, rfl⟩

/-! ### Loops over the table alone (R88) -/

/-- From `s` to `t` the entries become those given, and nothing else changes but TBLBUF and the count of free values. -/
def TableBecomes (s : State) (entries : Nat → Image) (t : State) : Prop :=
  ∃ tb b k, t = { s with table := tb, tblBuf := b, drawCount := k } ∧ Table.entry tb = entries

theorem tableBecomes_self (s : State) (b : Image) (k : Nat) :
    TableBecomes s (Table.entry s.table) { s with tblBuf := b, drawCount := k } := ⟨s.table, b, k, rfl, rfl⟩

theorem tableBecomes_tblWrite (i : Nat) (e b : Image) {s : State} (hs : Alone s) :
    TableBecomes s (Function.update (Table.entry s.table) i e) (tblWrite i e { s with tblBuf := b }) := by
  rw [tblWrite_alone i e { s with tblBuf := b } hs]
  refine ⟨Table.store s.table i e, e, s.drawCount, rfl, funext fun j => ?_⟩
  rw [Table.entry_store, Function.update_apply]

/-- A loop whose rounds each make `f` of their own entry, alone, makes `f` of every entry it visits. -/
theorem forEntries_alone {body : Nat → State → State} {c : Cfg} {f : Image → Image}
    (hbody : ∀ i s, Alone s → s.cfg = c →
      TableBecomes s (Function.update (Table.entry s.table) i (f (Table.entry s.table i))) (body i s))
    (n i : Nat) (s : State) (hs : Alone s) (hc : s.cfg = c) :
    TableBecomes s (fun j => if i ≤ j ∧ j < i + n then f (Table.entry s.table j) else Table.entry s.table j)
      (forEntries body n i s) := by
  induction n generalizing i s with
  | zero => exact ⟨s.table, s.tblBuf, s.drawCount, rfl, funext fun j => (if_neg (by omega)).symm⟩
  | succ n ih =>
    obtain ⟨tb, b, k, hround, hentry⟩ := hbody i s hs hc
    have hrest := ih (i + 1) (body i s) (by rw [hround]; exact hs) (by rw [hround]; exact hc)
    rw [hround] at hrest
    obtain ⟨tb', b', k', hrest, hentry'⟩ := hrest
    refine ⟨tb', b', k', by rw [forEntries, hround, hrest], hentry'.trans (funext fun j => ?_)⟩
    simp only [hentry, Function.update_apply]
    grind

/-! ### FLUSH_MCAST (R205) -/

/-- Alone, MaybeRewrite of the entry just read changes no entry, whatever the free value (log 19). -/
theorem maybeRewrite_alone {i : Nat} {s : State} (hs : Alone s) :
    maybeRewrite i (Table.entry s.table i) { s with tblBuf := Table.entry s.table i } =
      { s with tblBuf := Table.entry s.table i, drawCount := s.drawCount + 1 } := by
  have hdrawn := interleave_alone (drawBool { s with tblBuf := Table.entry s.table i }).2 hs
  unfold maybeRewrite
  dsimp only
  rw [hdrawn]
  exact if_pos ⟨rfl, rfl⟩

/-- FLUSH_MCAST takes ports from such an image: the conditions of R205, in the order of its arms. -/
abbrev Flushes (c : Cfg) (filter : Option Vid) (mask : Word) (e : Image) : Prop :=
  isAddr e = true ∧ flushPasses filter e = true ∧ isMcast e = true ∧ flushExempt c e = false ∧
    getF c e .portMask &&& mask ≠ 0

/-- What FLUSH_MCAST makes of an image. -/
def flushed (c : Cfg) (filter : Option Vid) (mask : Word) (e : Image) : Image :=
  if Flushes c filter mask e then removePorts c e mask else e

theorem flushed_of_not {c : Cfg} {filter : Option Vid} {mask : Word} {e : Image} (h : ¬ Flushes c filter mask e) :
    flushed c filter mask e = e := if_neg h

/-- Alone, a round rewrites its entry where FLUSH_MCAST takes ports from it, and every other arm of the round leaves the
entry as it was read. -/
theorem flushEntry_alone (filter : Option Vid) (mask : Word) (i : Nat) {s : State} (hs : Alone s) :
    TableBecomes s (Function.update (Table.entry s.table) i (flushed s.cfg filter mask (Table.entry s.table i)))
      (flushEntry filter mask i s) := by
  have hkept (k : Nat) (h : ¬ Flushes s.cfg filter mask (Table.entry s.table i)) :
      TableBecomes s (Function.update (Table.entry s.table) i (flushed s.cfg filter mask (Table.entry s.table i)))
        { s with tblBuf := Table.entry s.table i, drawCount := k } := by
    rw [flushed_of_not h, Function.update_eq_self]
    exact tableBecomes_self s _ k
  unfold flushEntry
  rw [tblRead_alone i s hs]
  simp only [maybeRewrite_alone hs, Bool.not_eq_true']
  split
  next haddr => exact hkept _ (by simp [haddr])
  split
  next hpass => exact hkept _ (by simp [hpass])
  split
  next hmcast => exact hkept _ (by simp [hmcast])
  split
  next hexempt =>
    rw [flushed_of_not (by simp [hexempt])]
    exact tableBecomes_tblWrite i _ _ hs
  split
  next hports => exact hkept _ (by simp [hports])
  next haddr hpass hmcast hexempt hports =>
    have hflushes : Flushes s.cfg filter mask (Table.entry s.table i) :=
      ⟨by simpa using haddr, by simpa using hpass, by simpa using hmcast, by simpa using hexempt, hports⟩
    rw [flushed, if_pos hflushes]
    exact tableBecomes_tblWrite i _ _ hs

/-- The VLAN filter of the operands (R83) passes every image, or those of the VLAN in `a.VID`. -/
theorem flushPasses_iff {any : Bool} {s : State} {filter : Option Vid} (h : flushFilter any s = some filter)
    (e : Image) : flushPasses filter e = true ↔ any = true ∨ s.a.vid = some (getVid e) := by
  cases any with
  | true =>
    obtain rfl : none = filter := by simpa [flushFilter] using h
    simp [flushPasses]
  | false =>
    obtain ⟨vid, hvid, rfl⟩ : ∃ vid, s.a.vid = some vid ∧ some vid = filter := by simpa [flushFilter] using h
    simp only [flushPasses, hvid, beq_iff_eq, Bool.false_eq_true, false_or, Option.some.injEq]
    exact eq_comm

/-- The exemption of R205, in the terms of the fields. -/
theorem flushExempt_eq_false_iff (c : Cfg) (e : Image) :
    flushExempt c e = false ↔ getF c e .super ≠ 1 ∧ getAddr e ≠ broadcastMac := by
  simp [flushExempt]

theorem flushFilter_eq_some {any : Bool} {s : State} (h : any = true ∨ s.a.vid.isSome = true) :
    ∃ filter, flushFilter any s = some filter := by
  cases any with
  | true => exact ⟨none, rfl⟩
  | false =>
    obtain ⟨vid, hvid⟩ := Option.isSome_iff_exists.1 (h.resolve_left Bool.false_ne_true)
    exact ⟨some vid, by simp [flushFilter, hvid]⟩

theorem exec_flushMcast {s : State} {any : Bool} {mask : Word} {filter : Option Vid} (hlive : Live s)
    (hmask : s.a.mask0 = some mask) (hfilter : flushFilter any s = some filter) :
    exec (.flushMcast any) s =
      complete .ok (forEntries (flushEntry filter (portMask s.cfg mask)) s.cfg.n 0 s) := by
  change execFlushMcast any s = _
  rw [execFlushMcast, whenCreated_live s _ hlive, hmask, withArg_some, hfilter, withArg_some]

/-- Settles O33: the loop makes `flushed` of every entry below N. -/
theorem flushMcastRemovesPortsEverywhere : Obligations.FlushMcastRemovesPortsEverywhere := by
  rintro s any mask ⟨hlive, hs⟩ hmask hvid
  obtain ⟨filter, hfilter⟩ := flushFilter_eq_some hvid
  have hround (i : Nat) (u : State) (hu : Alone u) (hc : u.cfg = s.cfg) : TableBecomes u
      (Function.update (Table.entry u.table) i (flushed s.cfg filter (portMask s.cfg mask) (Table.entry u.table i)))
      (flushEntry filter (portMask s.cfg mask) i u) := hc ▸ flushEntry_alone filter (portMask s.cfg mask) i hu
  obtain ⟨tb, b, k, hloop, hentry⟩ := forEntries_alone hround s.cfg.n 0 s hs rfl
  refine ⟨tb, b, k, ?_, fun j => ?_⟩
  · rw [exec_flushMcast hlive hmask hfilter, hloop]
    rfl
  · rw [hentry]
    simp only [flushed, Flushes, flushPasses_iff hfilter, flushExempt_eq_false_iff, ← ite_and]
    refine if_congr ?_ rfl rfl
    simp only [Nat.zero_le, true_and, Nat.zero_add, and_assoc]
    rfl

end Sys2Proof.Machine
end

section
/-! SUPPORT. The fields of a VLAN image (R31, R33, R158): under a well-formed configuration they share no bit with one
another nor with TYPE and VID, so that a field written reads back and every other field is kept. -/

namespace Sys2Proof.Machine

/-! ### The places of the fields (R6, R33) -/

theorem placesApart_iff (d e : Nat × Nat) :
    placesApart d e = true ↔ d.1 + d.2 ≤ e.1 ∨ e.1 + e.2 ≤ d.1 := by
  simp [placesApart]

theorem placesApart_comm {d e : Nat × Nat} (h : placesApart d e = true) : placesApart e d = true := by
  rw [placesApart_iff] at h ⊢
  exact h.symm

theorem noOverlap_pairwise {ds : List (Nat × Nat)} (h : noOverlap ds = true) :
    ds.Pairwise fun d e => placesApart d e = true := by
  induction ds with
  | nil => exact .nil
  | cons d ds ih =>
    simp only [noOverlap, Bool.and_eq_true, List.all_eq_true] at h
    exact .cons h.1 (ih h.2)

theorem vlanPlaces_ok {c : Cfg} (hc : cfgWf c = true) :
    (∀ d ∈ vlanPlaces c, placeFits d = true) ∧ (vlanPlaces c).Pairwise fun d e => placesApart d e = true := by
  simp only [cfgWf, Bool.and_eq_true] at hc
  obtain ⟨⟨⟨-, hvlan⟩, -⟩, -⟩ := hc
  simp only [placesOk, Bool.and_eq_true, List.all_eq_true] at hvlan
  exact ⟨hvlan.1, noOverlap_pairwise hvlan.2⟩

theorem mem_vlanPlaces {c : Cfg} {id : VlanField} {d : Nat × Nat} (hd : vlanPlace c id = some d) :
    d ∈ vlanPlaces c := by
  refine List.mem_append_right _ (List.mem_filterMap.2 ⟨id, ?_, hd⟩)
  cases id <;> simp

theorem vlanPlace_inRange {c : Cfg} {id : VlanField} {d : Nat × Nat} (hc : cfgWf c = true)
    (hd : vlanPlace c id = some d) : codecInRange d.1 d.2 = true := by
  have hfits := (vlanPlaces_ok hc).1 d (mem_vlanPlaces hd)
  simp only [placeFits, Bool.and_eq_true, decide_eq_true_eq] at hfits
  rw [codecInRange_iff]
  omega

theorem vlanPlace_apart {c : Cfg} {id id' : VlanField} {d d' : Nat × Nat} (hc : cfgWf c = true) (hne : id ≠ id')
    (hd : vlanPlace c id = some d) (hd' : vlanPlace c id' = some d') : placesApart d d' = true := by
  have hpairs := List.pairwise_filterMap.1 (List.pairwise_append.1 (vlanPlaces_ok hc).2).2.1
  have hsymm : Std.Symm fun i j => ∀ x, vlanPlace c i = some x → ∀ y, vlanPlace c j = some y → placesApart x y = true :=
    ⟨fun _ _ h x hx y hy => placesApart_comm (h y hy x hx)⟩
  exact hpairs.forall (by cases id <;> simp) (by cases id' <;> simp) hne d hd d' hd'

/-- TYPE and VID lie apart from the VLAN fields (R31, R33). -/
theorem vlanPlace_apart_header {c : Cfg} {id : VlanField} {d p : Nat × Nat} (hc : cfgWf c = true)
    (hd : vlanPlace c id = some d) (hp : p = (60, 2) ∨ p = (48, 12)) : placesApart p d = true := by
  refine (List.pairwise_append.1 (vlanPlaces_ok hc).2).2.2 p ?_ d (List.mem_filterMap.2 ⟨id, ?_, hd⟩)
  · simpa [fieldStart, fieldWidth] using hp
  · cases id <;> simp

/-! ### Fields written and read (R150, R151) -/

theorem getField_setField_same {s w : Nat} (e : Image) (v : Word) (hr : codecInRange s w = true) :
    getField (setField e s w v) s w = v &&& maskWord w := by
  obtain ⟨-, -, -, hfit⟩ := (codecInRange_iff s w).1 hr
  refine getField_of_bits fun i hi => ?_
  rw [getLsbD_setField, BitVec.getLsbD_and, getLsbD_maskWord]
  by_cases hw : i < w
  · simp [hi, hw, show s + i < 96 by omega]
  · simp [hw]

theorem getField_setField_apart {d d' : Nat × Nat} (e : Image) (v : Word) (h : placesApart d d' = true) :
    getField (setField e d.1 d.2 v) d'.1 d'.2 = getField e d'.1 d'.2 := by
  rw [placesApart_iff] at h
  refine getField_of_bits fun i hi => ?_
  rw [getLsbD_getField, decide_eq_true hi, Bool.true_and]
  by_cases hw : i < d'.2
  · rw [getLsbD_setField_outside e v (by omega)]
  · simp [hw]

theorem getField_and_maskWord (e : Image) (s w : Nat) : getField e s w &&& maskWord w = getField e s w := by
  refine BitVec.eq_of_getLsbD_eq fun i hi => ?_
  rw [BitVec.getLsbD_and, getLsbD_getField, getLsbD_maskWord]
  by_cases hw : i < w <;> simp [hi, hw]

theorem getField_lt (e : Image) (s w : Nat) : (getField e s w).toNat < 2 ^ w := by
  refine Nat.lt_pow_two_of_testBit _ fun i hi => ?_
  change (getField e s w).getLsbD i = false
  rw [getLsbD_getField]
  simp [show ¬ i < w by omega]

/-- A field of a VLAN image written, where the layout allows it: the image that VlanSet answers (R158). -/
def setVlanField (c : Cfg) (e : Image) (id : VlanField) (v : Word) : Image :=
  match vlanPlace c id with
  | some d => setField e d.1 d.2 v
  | none => e

theorem setVlanField_of_some {c : Cfg} {id : VlanField} {d : Nat × Nat} (e : Image) (v : Word)
    (hd : vlanPlace c id = some d) : setVlanField c e id v = setField e d.1 d.2 v := by
  simp only [setVlanField, hd]

theorem setVlanField_of_none {c : Cfg} {id : VlanField} (e : Image) (v : Word) (hd : vlanPlace c id = none) :
    setVlanField c e id v = e := by
  simp only [setVlanField, hd]

theorem vlanFieldOf_of_some {c : Cfg} {id : VlanField} {d : Nat × Nat} (e : Image) (hd : vlanPlace c id = some d) :
    vlanFieldOf c e id = getField e d.1 d.2 := by
  simp only [vlanFieldOf, hd]

theorem vlanGet_eq {id : VlanField} {s : State} (e : Image) (h : (vlanPlace s.cfg id).isSome = true) :
    vlanGet e id s = (vlanFieldOf s.cfg e id, s) := by
  obtain ⟨d, hd⟩ := Option.isSome_iff_exists.1 h
  simp only [vlanGet, vlanFieldOf, hd]

theorem vlanSet_eq {id : VlanField} {s : State} (e : Image) (v : Word) (h : (vlanPlace s.cfg id).isSome = true) :
    vlanSet e id v s = (setVlanField s.cfg e id v, s) := by
  obtain ⟨d, hd⟩ := Option.isSome_iff_exists.1 h
  simp only [vlanSet, setVlanField, hd]

/-- A write to a place apart from a VLAN field keeps the field. -/
theorem vlanFieldOf_setField {c : Cfg} {id : VlanField} {p : Nat × Nat} (e : Image) (v : Word)
    (h : ∀ d, vlanPlace c id = some d → placesApart p d = true) :
    vlanFieldOf c (setField e p.1 p.2 v) id = vlanFieldOf c e id := by
  cases hd : vlanPlace c id with
  | none => simp only [vlanFieldOf, hd]
  | some d => rw [vlanFieldOf_of_some _ hd, vlanFieldOf_of_some _ hd, getField_setField_apart e v (h d hd)]

section WellFormed

variable {c : Cfg} (hc : cfgWf c = true)
include hc

theorem vlanFieldOf_setVlanField_other {id id' : VlanField} (e : Image) (v : Word) (hne : id' ≠ id) :
    vlanFieldOf c (setVlanField c e id v) id' = vlanFieldOf c e id' := by
  cases hd : vlanPlace c id with
  | none => rw [setVlanField_of_none e v hd]
  | some d =>
    rw [setVlanField_of_some e v hd]
    exact vlanFieldOf_setField e v fun d' hd' => vlanPlace_apart hc hne.symm hd hd'

theorem vlanFieldOf_setType (e : Image) (t : EntryType) (id : VlanField) :
    vlanFieldOf c (setType e t) id = vlanFieldOf c e id :=
  vlanFieldOf_setField (p := (60, 2)) e _ fun _ hd => vlanPlace_apart_header hc hd (.inl rfl)

theorem vlanFieldOf_setVid (e : Image) (vid : Vid) (id : VlanField) :
    vlanFieldOf c (setVid e vid) id = vlanFieldOf c e id :=
  vlanFieldOf_setField (p := (48, 12)) e _ fun _ hd => vlanPlace_apart_header hc hd (.inr rfl)

/-- A VLAN field written keeps TYPE and VID. -/
theorem getField_setVlanField_header {p : Nat × Nat} (e : Image) (id : VlanField) (v : Word)
    (hp : p = (60, 2) ∨ p = (48, 12)) : getField (setVlanField c e id v) p.1 p.2 = getField e p.1 p.2 := by
  cases hd : vlanPlace c id with
  | none => rw [setVlanField_of_none e v hd]
  | some d =>
    rw [setVlanField_of_some e v hd]
    exact getField_setField_apart e v (placesApart_comm (vlanPlace_apart_header hc hd hp))

theorem entryType_setVlanField (e : Image) (id : VlanField) (v : Word) :
    entryType (setVlanField c e id v) = entryType e :=
  congrArg entryTypeOf (getField_setVlanField_header hc (p := (60, 2)) e id v (.inl rfl))

theorem getVid_setVlanField (e : Image) (id : VlanField) (v : Word) : getVid (setVlanField c e id v) = getVid e :=
  congrArg (BitVec.setWidth 12) (getField_setVlanField_header hc (p := (48, 12)) e id v (.inr rfl))

end WellFormed

theorem entryType_setType (e : Image) (t : EntryType) : entryType (setType e t) = t := by
  rw [entryType, setType, getField_setField_same e _ (by decide)]
  cases t <;> rfl

theorem entryType_setVid (e : Image) (vid : Vid) : entryType (setVid e vid) = entryType e :=
  congrArg entryTypeOf (getField_setField_apart (d := (48, 12)) (d' := (60, 2)) e _ (by decide))

theorem getVid_setVid (e : Image) (vid : Vid) : getVid (setVid e vid) = vid :=
  getVid_of_bits fun i hi => by rw [getLsbD_setVid, if_pos (by omega), Nat.add_sub_cancel_left]

/-! ### The bits a command keeps (R240, R235) -/

theorem keptOutside_refl (places : List (Nat × Nat)) (e : Image) : KeptOutside places e e := fun _ _ => rfl

theorem keptOutside_setField {places : List (Nat × Nat)} {old e : Image} {d : Nat × Nat}
    (h : KeptOutside places old e) (hd : d ∈ places) (v : Word) : KeptOutside places old (setField e d.1 d.2 v) :=
  fun b hb => (getLsbD_setField_outside e v (hb d hd)).trans (h b hb)

theorem keptOutside_setVlanField {places : List (Nat × Nat)} {old e : Image} {c : Cfg} {id : VlanField}
    (h : KeptOutside places old e) (hd : ∀ d, vlanPlace c id = some d → d ∈ places) (v : Word) :
    KeptOutside places old (setVlanField c e id v) := by
  cases hp : vlanPlace c id with
  | none => rwa [setVlanField_of_none e v hp]
  | some d =>
    rw [setVlanField_of_some e v hp]
    exact keptOutside_setField h (hd d hp) v

end Sys2Proof.Machine
end

section
/-! SUPPORT. The four masks of a VLAN entry (R33, R44, R231 to R233): which values their fields hold, the mask bank, and
what the masks read as after a write of the flood masks and the members. -/

namespace Sys2Proof.Machine

/-! ### Values that fit (R33, R44) -/

/-- The bits of a mask that its field holds, or the bank register where the layout has no field for it. -/
def fieldMask (c : Cfg) (id : VlanField) : Word :=
  match vlanPlace c id with
  | some d => maskWord d.2
  | none => portMaskAll c

/-- The field, or the bank register in its place, holds every bit of the value. -/
def Fits (c : Cfg) (id : VlanField) (v : Word) : Prop := v &&& fieldMask c id = v

section Fits

variable {c : Cfg} {id : VlanField} {u v : Word}

theorem Fits.and (h : Fits c id v) (u : Word) : Fits c id (v &&& u) := by
  rw [Fits, BitVec.and_assoc, BitVec.and_comm u, ← BitVec.and_assoc, h]

theorem Fits.or (h : Fits c id v) (h' : Fits c id u) : Fits c id (v ||| u) := by
  rw [Fits, BitVec.and_or_distrib_right, h, h']

theorem fits_zero (c : Cfg) (id : VlanField) : Fits c id 0 := BitVec.zero_and

theorem fits_vlanFieldOf (e : Image) (h : (vlanPlace c id).isSome = true) : Fits c id (vlanFieldOf c e id) := by
  obtain ⟨d, hd⟩ := Option.isSome_iff_exists.1 h
  simp only [Fits, fieldMask, vlanFieldOf, hd, getField_and_maskWord]

theorem fits_of_none (h : vlanPlace c id = none) : Fits c id v ↔ v &&& portMaskAll c = v := by
  simp only [Fits, fieldMask, h]

/-- A value that fits an inline field reads back. -/
theorem vlanFieldOf_setVlanField_same (e : Image) (hc : cfgWf c = true) (hid : (vlanPlace c id).isSome = true)
    (hv : Fits c id v) : vlanFieldOf c (setVlanField c e id v) id = v := by
  obtain ⟨d, hd⟩ := Option.isSome_iff_exists.1 hid
  simp only [Fits, fieldMask, hd] at hv
  rw [setVlanField_of_some e v hd, vlanFieldOf_of_some _ hd, getField_setField_same e v (vlanPlace_inRange hc hd), hv]

end Fits

theorem p_le_pmax_of_cfgWf {c : Cfg} (hc : cfgWf c = true) : c.p ≤ pmax c.layout := by
  simp only [cfgWf, Bool.and_eq_true, decide_eq_true_eq] at hc
  obtain ⟨⟨⟨⟨⟨⟨-, hp⟩, -⟩, -⟩, -⟩, -⟩, -⟩ := hc
  exact hp

/-- A mask field of a fixed width has a bit for every port that its layout admits (R6, R33). -/
theorem pmax_le_of_fixed {l : Layout} {id : VlanField} {st w : Nat} (hid : id ≠ .regMcastIdx ∧ id ≠ .unregMcastIdx)
    (h : vlanDesc l id = some (st, .fixed w)) : pmax l ≤ w := by
  cases l <;> cases id <;> simp_all [vlanDesc, pmax]

/-- Every mask field has a bit for every port (R6, R33). -/
theorem p_le_width {c : Cfg} {id : VlanField} {d : Nat × Nat} (hc : cfgWf c = true)
    (hid : id ≠ .regMcastIdx ∧ id ≠ .unregMcastIdx) (hd : vlanPlace c id = some d) : c.p ≤ d.2 := by
  obtain ⟨⟨st, w⟩, hdesc, rfl⟩ := Option.map_eq_some_iff.1 hd
  cases w with
  | dyn => exact le_rfl
  | fixed w => exact (p_le_pmax_of_cfgWf hc).trans (pmax_le_of_fixed hid hdesc)

theorem portMaskAll_and_maskWord {c : Cfg} {w : Nat} (h : c.p ≤ w) : portMaskAll c &&& maskWord w = portMaskAll c := by
  refine BitVec.eq_of_getLsbD_eq fun i hi => ?_
  rw [BitVec.getLsbD_and, portMaskAll, getLsbD_maskWord, getLsbD_maskWord]
  grind

theorem fits_portMask {c : Cfg} {id : VlanField} (hc : cfgWf c = true)
    (hid : id ≠ .regMcastIdx ∧ id ≠ .unregMcastIdx) (v : Word) : Fits c id (portMask c v) := by
  cases hd : vlanPlace c id with
  | none => rw [fits_of_none hd, portMask, BitVec.and_assoc, BitVec.and_self]
  | some d => simp only [Fits, fieldMask, hd, portMask, BitVec.and_assoc, portMaskAll_and_maskWord (p_le_width hc hid hd)]

/-- Each of the four masks fits its field. -/
structure MasksFit (c : Cfg) (m : VlanMasks) : Prop where
  mem : Fits c .memberList m.mem
  untag : Fits c .forceUntagMsk m.untag
  reg : Fits c .regMcastMsk m.reg
  unreg : Fits c .unregMcastMsk m.unreg

theorem masksFit_operandMasks {c : Cfg} (hc : cfgWf c = true) (m0 m1 m2 m3 : Word) :
    MasksFit c (operandMasks c m0 m1 m2 m3) where
  mem := fits_portMask hc (by simp) m0
  untag := fits_portMask hc (by simp) m1
  reg := fits_portMask hc (by simp) m2
  unreg := fits_portMask hc (by simp) m3

theorem masksFit_zero (c : Cfg) : MasksFit c { mem := 0, untag := 0, reg := 0, unreg := 0 } :=
  ⟨fits_zero c _, fits_zero c _, fits_zero c _, fits_zero c _⟩

theorem masksFit_modifiedMasks {c : Cfg} {old new : VlanMasks} (hold : MasksFit c old) (hnew : MasksFit c new) :
    MasksFit c (modifiedMasks old new) where
  mem := hold.mem.or hnew.mem
  untag := (hold.untag.and _).or (hnew.untag.and _)
  reg := (hold.reg.and _).or (hnew.reg.and _)
  unreg := (hold.unreg.and _).or (hnew.unreg.and _)

theorem masksFit_narrowed {c : Cfg} {m : VlanMasks} {mem : Word} (h : MasksFit c m) (hmem : Fits c .memberList mem) :
    MasksFit c (narrowed m mem) :=
  ⟨hmem, h.untag.and mem, h.reg.and mem, h.unreg.and mem⟩

/-! ### The layout with the mask bank (R33, R232) -/

theorem vlanPlace_indirect {c : Cfg} (h : indirect c = true) :
    vlanPlace c .regMcastMsk = none ∧ vlanPlace c .unregMcastMsk = none ∧
      vlanPlace c .regMcastIdx = some (44, 3) ∧ vlanPlace c .unregMcastIdx = some (20, 3) := by
  have hl : c.layout = .nu := by simpa [indirect] using h
  simp [vlanPlace, vlanDesc, vlanWidth, hl]

theorem vlanPlace_idx_inline {c : Cfg} (h : indirect c = false) :
    vlanPlace c .regMcastIdx = none ∧ vlanPlace c .unregMcastIdx = none := by
  cases hl : c.layout <;> simp [indirect, vlanPlace, vlanDesc, hl] at h ⊢

/-- The indices into the mask bank, of 3 bits, name its eight registers (R44). -/
theorem vlanIdx_lt {c : Cfg} (h : indirect c = true) (e : Image) :
    (vlanFieldOf c e .regMcastIdx).toNat < 8 ∧ (vlanFieldOf c e .unregMcastIdx).toNat < 8 := by
  obtain ⟨-, -, hreg, hunreg⟩ := vlanPlace_indirect h
  rw [vlanFieldOf_of_some e hreg, vlanFieldOf_of_some e hunreg]
  exact ⟨getField_lt e 44 3, getField_lt e 20 3⟩

theorem muxMask_and_portMaskAll (c : Cfg) (mux : Vector Word 8) (k : Nat) :
    muxMask c mux k &&& portMaskAll c = muxMask c mux k := by
  rw [muxMask, BitVec.and_assoc, BitVec.and_self]

/-- A flood mask, read from the bank or inline, fits where it was read. -/
theorem fits_flood {c : Cfg} {id : VlanField} (mux : Vector Word 8) (k : Nat) (e : Image)
    (hbank : indirect c = true → vlanPlace c id = none) (hinl : ¬ indirect c = true → (vlanPlace c id).isSome = true) :
    Fits c id (if indirect c then muxMask c mux k else vlanFieldOf c e id) := by
  split
  next hind => exact (fits_of_none (hbank hind)).2 (muxMask_and_portMaskAll c mux k)
  next hind => exact fits_vlanFieldOf e (hinl hind)

theorem masksFit_vlanMasksOf (c : Cfg) (mux : Vector Word 8) (e : Image) : MasksFit c (vlanMasksOf c mux e) where
  mem := fits_vlanFieldOf e (vlanPlace_memberList c)
  untag := fits_vlanFieldOf e (vlanPlace_forceUntagMsk c)
  reg := fits_flood mux _ e (fun h => (vlanPlace_indirect h).1) fun h => (vlanPlace_msk h).1
  unreg := fits_flood mux _ e (fun h => (vlanPlace_indirect h).2.1) fun h => (vlanPlace_msk h).2

/-! ### The mask bank (R44, R233) -/

/-- The bank after a write of a register of it: the bits of the P ports are stored (R44, R121). -/
def storeMux (c : Cfg) (mux : Vector Word 8) (k : Nat) (v : Word) : Vector Word 8 :=
  mux.setIfInBounds k (v &&& portMaskAll c)

theorem writeReg_maskMux (k : Nat) (v : Word) (s : State) :
    writeReg (.maskMux k) v s = { s with regs := { s.regs with maskMux := storeMux s.cfg s.regs.maskMux k v } } := rfl

theorem storeMux_other {c : Cfg} {mux : Vector Word 8} {k x : Nat} (v : Word) (h : x ≠ k) :
    (storeMux c mux k v)[x]? = mux[x]? := Vector.getElem?_setIfInBounds_ne h.symm

theorem muxMask_storeMux_other {c : Cfg} {mux : Vector Word 8} {k x : Nat} (v : Word) (h : x ≠ k) :
    muxMask c (storeMux c mux k v) x = muxMask c mux x := by
  rw [muxMask, storeMux_other v h, muxMask]

theorem muxMask_storeMux_same {c : Cfg} (mux : Vector Word 8) {k : Nat} (v : Word) (hk : k < 8) :
    muxMask c (storeMux c mux k v) k = v &&& portMaskAll c := by
  simp [muxMask, storeMux, hk, BitVec.and_assoc]

/-- The bank after the flood masks of a VLAN image are set: with equal indices the second write wins (R233). -/
def floodBank (c : Cfg) (mux : Vector Word 8) (e : Image) (reg unreg : Word) : Vector Word 8 :=
  if indirect c then
    storeMux c (storeMux c mux (vlanFieldOf c e .regMcastIdx).toNat reg) (vlanFieldOf c e .unregMcastIdx).toNat unreg
  else mux

theorem bankKept_floodBank (c : Cfg) (mux : Vector Word 8) (e : Image) (reg unreg : Word) :
    BankKept c mux (floodBank c mux e reg unreg) (vlanFieldOf c e .regMcastIdx) (vlanFieldOf c e .unregMcastIdx) := by
  unfold floodBank
  refine ⟨fun h => by rw [h, if_neg Bool.false_ne_true], fun x hreg hunreg => ?_⟩
  split
  · rw [storeMux_other _ hunreg, storeMux_other _ hreg]
  · rfl

/-! ### The masks after a write (R233, R240) -/

/-- The image with the inline flood masks set (R233). -/
def floodImage (c : Cfg) (e : Image) (reg unreg : Word) : Image :=
  setVlanField c (setVlanField c e .regMcastMsk reg) .unregMcastMsk unreg

/-- The image with the inline flood masks and then the members set: the end of R235 and of R240. -/
def floodMemImage (c : Cfg) (e : Image) (m : VlanMasks) : Image :=
  setVlanField c (floodImage c e m.reg m.unreg) .memberList m.mem

section Written

variable {c : Cfg} (hc : cfgWf c = true)
include hc

theorem entryType_floodMemImage (e : Image) (m : VlanMasks) : entryType (floodMemImage c e m) = entryType e := by
  simp only [floodMemImage, floodImage, entryType_setVlanField hc]

theorem getVid_floodMemImage (e : Image) (m : VlanMasks) : getVid (floodMemImage c e m) = getVid e := by
  simp only [floodMemImage, floodImage, getVid_setVlanField hc]

theorem vlanFieldOf_floodMemImage {id : VlanField} (e : Image) (m : VlanMasks)
    (hid : id ≠ .memberList ∧ id ≠ .regMcastMsk ∧ id ≠ .unregMcastMsk) :
    vlanFieldOf c (floodMemImage c e m) id = vlanFieldOf c e id := by
  obtain ⟨hmem, hreg, hunreg⟩ := hid
  rw [floodMemImage, floodImage, vlanFieldOf_setVlanField_other hc _ _ hmem,
    vlanFieldOf_setVlanField_other hc _ _ hunreg, vlanFieldOf_setVlanField_other hc _ _ hreg]

theorem vlanFieldOf_floodMemImage_flood (e : Image) {m : VlanMasks} (hm : MasksFit c m) (h : ¬ indirect c = true) :
    vlanFieldOf c (floodMemImage c e m) .regMcastMsk = m.reg ∧
      vlanFieldOf c (floodMemImage c e m) .unregMcastMsk = m.unreg := by
  obtain ⟨hreg, hunreg⟩ := vlanPlace_msk h
  constructor
  · rw [floodMemImage, floodImage, vlanFieldOf_setVlanField_other hc _ _ (by simp),
      vlanFieldOf_setVlanField_other hc _ _ (by simp), vlanFieldOf_setVlanField_same _ hc hreg hm.reg]
  · rw [floodMemImage, floodImage, vlanFieldOf_setVlanField_other hc _ _ (by simp),
      vlanFieldOf_setVlanField_same _ hc hunreg hm.unreg]

omit hc in
/-- The bank registers read as the flood masks written, or both as the second of them (R233). -/
theorem muxMask_floodBank (mux : Vector Word 8) (e : Image) {m : VlanMasks} (hm : MasksFit c m)
    (h : indirect c = true) :
    muxMask c (floodBank c mux e m.reg m.unreg) (vlanFieldOf c e .unregMcastIdx).toNat = m.unreg ∧
      muxMask c (floodBank c mux e m.reg m.unreg) (vlanFieldOf c e .regMcastIdx).toNat =
        if vlanFieldOf c e .regMcastIdx = vlanFieldOf c e .unregMcastIdx then m.unreg else m.reg := by
  obtain ⟨hreg, hunreg, -⟩ := vlanPlace_indirect h
  obtain ⟨hregIdx, hunregIdx⟩ := vlanIdx_lt h e
  have hsecond : muxMask c (floodBank c mux e m.reg m.unreg) (vlanFieldOf c e .unregMcastIdx).toNat = m.unreg := by
    rw [floodBank, if_pos h, muxMask_storeMux_same _ _ hunregIdx]
    exact (fits_of_none hunreg).1 hm.unreg
  refine ⟨hsecond, ?_⟩
  split
  next heq => rw [heq, hsecond]
  next hne =>
    rw [floodBank, if_pos h, muxMask_storeMux_other _ (mt BitVec.eq_of_toNat_eq hne), muxMask_storeMux_same _ _ hregIdx]
    exact (fits_of_none hreg).1 hm.reg

theorem vlanMasksOf_floodMemImage (mux : Vector Word 8) (e : Image) {m : VlanMasks} (hm : MasksFit c m)
    (huntag : vlanFieldOf c e .forceUntagMsk = m.untag) :
    vlanMasksOf c (floodBank c mux e m.reg m.unreg) (floodMemImage c e m) = masksWritten c e m := by
  have hmem : vlanFieldOf c (floodMemImage c e m) .memberList = m.mem :=
    vlanFieldOf_setVlanField_same _ hc (vlanPlace_memberList c) hm.mem
  have huntag' : vlanFieldOf c (floodMemImage c e m) .forceUntagMsk = m.untag :=
    (vlanFieldOf_floodMemImage hc e m (by simp)).trans huntag
  by_cases hind : indirect c = true
  · obtain ⟨hunreg, hreg⟩ := muxMask_floodBank mux e hm hind
    have hregIdx := vlanFieldOf_floodMemImage hc (id := .regMcastIdx) e m (by simp)
    have hunregIdx := vlanFieldOf_floodMemImage hc (id := .unregMcastIdx) e m (by simp)
    simp only [vlanMasksOf, masksWritten, hind, hmem, huntag', hregIdx, hunregIdx, hreg, hunreg, true_and, if_true]
    split <;> rfl
  · obtain ⟨hreg, hunreg⟩ := vlanFieldOf_floodMemImage_flood hc e hm hind
    simp [vlanMasksOf, masksWritten, hind, hmem, huntag', hreg, hunreg]

omit hc in
theorem keptOutside_floodMemImage {places : List (Nat × Nat)} {old e : Image} (h : KeptOutside places old e)
    (hplaces : ∀ d ∈ vlanMaskPlaces c, d ∈ places) (m : VlanMasks) : KeptOutside places old (floodMemImage c e m) := by
  have hmem {id : VlanField} (hid : id ∈ [VlanField.memberList, .forceUntagMsk, .regMcastMsk, .unregMcastMsk])
      (d : Nat × Nat) (hd : vlanPlace c id = some d) : d ∈ places := hplaces d (List.mem_filterMap.2 ⟨id, hid, hd⟩)
  exact keptOutside_setVlanField (keptOutside_setVlanField (keptOutside_setVlanField h (hmem (by simp)) _)
    (hmem (by simp)) _) (hmem (by simp)) _

end Written

end Sys2Proof.Machine
end

section
/-! SUPPORT. ADD_VLAN and VLAN_ADD_MODIFY alone (R231 to R234, R240, R241): what the helpers of the VLAN commands come to,
and what the two commands answer. -/

namespace Sys2Proof.Machine

/-! ### The helpers alone (R231 to R233) -/

/-- The machine with another mask bank. -/
abbrev withBank (s : State) (g : Vector Word 8) : State := { s with regs := { s.regs with maskMux := g } }

theorem setUntag_eq (e : Image) (vid : Vid) (u : Word) (s : State) :
    setUntag e vid u s = (setVlanField s.cfg e .forceUntagMsk u, setUntagBit vid (u.getLsbD 0) s) := by
  simp only [setUntag, vlanSet_eq e u (vlanPlace_forceUntagMsk s.cfg)]

theorem memWrite_maskMux_alone (k : Nat) (v : Word) {s : State} (hs : Alone s) :
    memWrite (.maskMux k) v s = withBank s (storeMux s.cfg s.regs.maskMux k v) := memWrite_alone _ v s hs

theorem readMux_alone (k : Nat) {s : State} (hs : Alone s) :
    ∃ d, readMux k s = (muxMask s.cfg s.regs.maskMux k, { s with drawCount := d }) := by
  obtain ⟨d, hd⟩ := readReg_frame (.maskMux k) s
  refine ⟨d, ?_⟩
  have hread : readWord (readReg (.maskMux k) s).1 &&& portMaskAll s.cfg = muxMask s.cfg s.regs.maskMux k :=
    readWord_readReg (.maskMux k) s
  simp only [readMux, memRead_alone _ s hs, readUnder_eq, hd, hread]

theorem getFlood_alone (e : Image) {s : State} (hs : Alone s) :
    ∃ d, getFlood e s = (((vlanMasksOf s.cfg s.regs.maskMux e).reg, (vlanMasksOf s.cfg s.regs.maskMux e).unreg),
      { s with drawCount := d }) := by
  unfold getFlood vlanMasksOf
  split
  next hind =>
    obtain ⟨hreg, hunreg⟩ := vlanPlace_idx hind
    obtain ⟨d, hd⟩ := readMux_alone (vlanFieldOf s.cfg e .regMcastIdx).toNat hs
    obtain ⟨d', hd'⟩ := readMux_alone (vlanFieldOf s.cfg e .unregMcastIdx).toNat (s := { s with drawCount := d }) hs
    refine ⟨d', ?_⟩
    have hget := vlanGet_eq (s := { s with drawCount := d }) e hunreg
    simp only [vlanGet_eq e hreg, hd, hget, hd']
  next hinl =>
    obtain ⟨hreg, hunreg⟩ := vlanPlace_msk hinl
    exact ⟨s.drawCount, by simp only [vlanGet_eq e hreg, vlanGet_eq e hunreg]⟩

theorem setFlood_alone (e : Image) (reg unreg : Word) {s : State} (hs : Alone s) :
    setFlood e reg unreg s =
      (floodImage s.cfg e reg unreg, withBank s (floodBank s.cfg s.regs.maskMux e reg unreg)) := by
  unfold setFlood floodBank floodImage
  split
  next hind =>
    obtain ⟨hreg, hunreg⟩ := vlanPlace_idx hind
    obtain ⟨hregMsk, hunregMsk, -⟩ := vlanPlace_indirect hind
    have hfirst := memWrite_maskMux_alone (vlanFieldOf s.cfg e .regMcastIdx).toNat reg hs
    have hget := vlanGet_eq (s := withBank s (storeMux s.cfg s.regs.maskMux (vlanFieldOf s.cfg e .regMcastIdx).toNat reg))
      e hunreg
    simp only [vlanGet_eq e hreg, hfirst, hget, setVlanField_of_none _ _ hregMsk, setVlanField_of_none _ _ hunregMsk]
    exact congrArg (Prod.mk e) (memWrite_maskMux_alone _ unreg (s := withBank s _) hs)
  next hinl =>
    obtain ⟨hreg, hunreg⟩ := vlanPlace_msk hinl
    simp only [vlanSet_eq _ reg hreg, vlanSet_eq _ unreg hunreg]

/-! ### The images of ADD_VLAN (R240) -/

/-- The image of R240 before the flood masks and the members: TYPE, VID, the untag mask and UNREG_MCAST_IDX. -/
def vlanHeader (c : Cfg) (vid : Vid) (untag : Word) (e : Image) : Image :=
  setVlanField c (setVlanField c (setVid (setType e .vlan) vid) .forceUntagMsk untag) .unregMcastIdx 1

/-- Without the mask bank the layout has no index to set (R234). -/
theorem setUnregIdx_eq (e : Image) (s : State) :
    (if indirect s.cfg then vlanSet e .unregMcastIdx 1 s else (e, s)) =
      (setVlanField s.cfg e .unregMcastIdx 1, s) := by
  split
  next hind => exact vlanSet_eq e 1 (vlanPlace_idx hind).2
  next hinl => rw [setVlanField_of_none e 1 (vlanPlace_idx_inline (by simpa using hinl)).2]

theorem buildVlan_alone (e : Image) (vid : Vid) (m : VlanMasks) {s : State} (hs : Alone s) :
    buildVlan e vid m s = (floodMemImage s.cfg (vlanHeader s.cfg vid m.untag e) m,
      setUntagBit vid (m.untag.getLsbD 0)
        (withBank s (floodBank s.cfg s.regs.maskMux (vlanHeader s.cfg vid m.untag e) m.reg m.unreg))) := by
  have hflood := setFlood_alone (vlanHeader s.cfg vid m.untag e) m.reg m.unreg
    (s := setUntagBit vid (m.untag.getLsbD 0) s) hs
  have hheader : buildVlan e vid m s =
      let flood := setFlood (vlanHeader s.cfg vid m.untag e) m.reg m.unreg (setUntagBit vid (m.untag.getLsbD 0) s)
      vlanSet flood.1 .memberList m.mem flood.2 := by
    simp only [buildVlan, setUntag_eq, setUnregIdx_eq]
    rfl
  rw [hheader, hflood]
  exact vlanSet_eq _ _ (vlanPlace_memberList _)

section Built

variable {c : Cfg} (hc : cfgWf c = true)
include hc

theorem vlanFieldOf_vlanHeader {id : VlanField} (vid : Vid) (untag : Word) (e : Image)
    (hid : id ≠ .forceUntagMsk ∧ id ≠ .unregMcastIdx) :
    vlanFieldOf c (vlanHeader c vid untag e) id = vlanFieldOf c e id := by
  obtain ⟨huntag, hidx⟩ := hid
  rw [vlanHeader, vlanFieldOf_setVlanField_other hc _ _ hidx, vlanFieldOf_setVlanField_other hc _ _ huntag,
    vlanFieldOf_setVid hc, vlanFieldOf_setType hc]

theorem forceUntagMsk_vlanHeader (vid : Vid) {untag : Word} (e : Image) (h : Fits c .forceUntagMsk untag) :
    vlanFieldOf c (vlanHeader c vid untag e) .forceUntagMsk = untag := by
  rw [vlanHeader, vlanFieldOf_setVlanField_other hc _ _ (by simp),
    vlanFieldOf_setVlanField_same _ hc (vlanPlace_forceUntagMsk c) h]

theorem unregMcastIdx_vlanHeader (vid : Vid) (untag : Word) (e : Image) (h : indirect c = true) :
    vlanFieldOf c (vlanHeader c vid untag e) .unregMcastIdx = 1 := by
  obtain ⟨-, -, -, hplace⟩ := vlanPlace_indirect h
  have hone : Fits c .unregMcastIdx 1 := by
    simp only [Fits, fieldMask, hplace]
    rfl
  exact vlanFieldOf_setVlanField_same _ hc (vlanPlace_idx h).2 hone

omit hc in
theorem keptOutside_vlanHeader (vid : Vid) (untag : Word) (e : Image) :
    KeptOutside (vlanWrittenPlaces c) e (vlanHeader c vid untag e) := by
  have htype : KeptOutside (vlanWrittenPlaces c) e (setType e .vlan) :=
    keptOutside_setField (d := (60, 2)) (keptOutside_refl _ e) (by simp [vlanWrittenPlaces]) _
  have hvid : KeptOutside (vlanWrittenPlaces c) e (setVid (setType e .vlan) vid) :=
    keptOutside_setField (d := (48, 12)) htype (by simp [vlanWrittenPlaces]) _
  refine keptOutside_setVlanField (keptOutside_setVlanField hvid (fun d hd => ?_) untag) (fun d hd => ?_) 1
  · exact List.mem_append_left _ (List.mem_append_right _ (List.mem_filterMap.2 ⟨.forceUntagMsk, by simp, hd⟩))
  · exact List.mem_append_right _ (by simp [hd])

/-- The image and the bank that the end of R240 leaves. -/
theorem vlanWritten_build (vid : Vid) {m : VlanMasks} (hm : MasksFit c m) (mux : Vector Word 8) (old : Image) :
    VlanWritten c vid m mux (floodBank c mux (vlanHeader c vid m.untag old) m.reg m.unreg) old
      (floodMemImage c (vlanHeader c vid m.untag old) m) := by
  have hregIdx := vlanFieldOf_vlanHeader hc (id := .regMcastIdx) vid m.untag old (by simp)
  have hkeptIdx (id : VlanField) (hid : id ≠ .memberList ∧ id ≠ .regMcastMsk ∧ id ≠ .unregMcastMsk) :=
    vlanFieldOf_floodMemImage hc (vlanHeader c vid m.untag old) m hid
  refine ⟨?_, ?_, ?_, fun hind => ⟨?_, ?_⟩, ?_, ?_⟩
  · simp only [entryType_floodMemImage hc, vlanHeader, entryType_setVlanField hc, entryType_setVid, entryType_setType]
  · simp only [getVid_floodMemImage hc, vlanHeader, getVid_setVlanField hc, getVid_setVid]
  · rw [vlanMasksOf_floodMemImage hc mux _ hm (forceUntagMsk_vlanHeader hc vid old hm.untag), masksWritten,
      masksWritten, hkeptIdx .regMcastIdx (by simp), hkeptIdx .unregMcastIdx (by simp)]
  · rw [hkeptIdx .unregMcastIdx (by simp), unregMcastIdx_vlanHeader hc vid m.untag old hind]
  · rw [hkeptIdx .regMcastIdx (by simp), hregIdx]
  · obtain ⟨hinline, hother⟩ := bankKept_floodBank c mux (vlanHeader c vid m.untag old) m.reg m.unreg
    rw [hregIdx] at hother
    cases hind : indirect c with
    | false => exact ⟨hinline, fun x _ _ => by rw [hinline hind]⟩
    | true =>
      rw [unregMcastIdx_vlanHeader hc vid m.untag old hind] at hother
      exact ⟨hinline, hother⟩
  · exact keptOutside_floodMemImage (keptOutside_vlanHeader vid m.untag old)
      (fun d hd => List.mem_append_left _ (List.mem_append_right _ hd)) m

end Built

/-! ### ADD_VLAN and VLAN_ADD_MODIFY (R240, R241) -/

/-- The machine after a VLAN command wrote the image `e` at the index `j`, with the untag bit `ub` and the bank `g`. -/
def vlanDone (s : State) (vid : Vid) (ub : Bool) (g : Vector Word 8) (j : Nat) (e : Image) (k : Nat) : State :=
  setUntagBit vid ub { s with
    regs := { s.regs with maskMux := g }
    table := Table.store s.table j e
    tblBuf := e
    drawCount := k
    res := { s.res with status := 0, index := some (BitVec.ofNat 32 j) } }

/-- Alone, a VLAN command that ends by writing its image and answering its index. -/
theorem completeVlan_alone (vid : Vid) (ub : Bool) (g : Vector Word 8) (j : Nat) (e b : Image) (k : Nat) {s : State}
    (hs : Alone s) :
    complete .ok (setIndex j (tblWrite j e (setUntagBit vid ub { withBank s g with tblBuf := b, drawCount := k }))) =
      .next (vlanDone s vid ub g j e k) :=
  completeWrite_alone j e b (s := setUntagBit vid ub { withBank s g with drawCount := k }) hs

/-- What R240 with the masks `m` leaves of `s`: the entry written at the slot of R189, or ResourceExhausted with nothing
written. -/
def AddedVlan (vid : Vid) (m : VlanMasks) (s : State) (o : Host.Outcome State Fault Refusal) : Prop :=
  match slotFor (vlanMatches vid) s.cfg.n s.table with
  | some j =>
    ∃ e g k, o = .next (vlanDone s vid (m.untag.getLsbD 0) g j e k) ∧
      VlanWritten s.cfg vid m s.regs.maskMux g (vlanImageOf vid s) e
  | none => ∃ b, o = .next { s with tblBuf := b, res := { s.res with status := 3 } }

theorem addVlanWith_alone (vid : Vid) {m : VlanMasks} {s : State} (hs : Alone s) (hc : cfgWf s.cfg = true)
    (hm : MasksFit s.cfg m) : AddedVlan vid m s (addVlanWith vid m s) := by
  obtain ⟨b, hfound, hscan⟩ := indexOf_scan_alone (vlanMatches vid) hs
  obtain ⟨b', hold⟩ := existingImage_alone (vlanMatches vid) (s := { s with tblBuf := b }) hs
  obtain ⟨b'', halloc⟩ := alloc_firstIndex_alone (vlanMatches vid) (s := { s with tblBuf := b' }) hs
  unfold addVlanWith AddedVlan
  simp only [matchVlan, hfound, hscan, hold, halloc]
  cases slotFor (vlanMatches vid) s.cfg.n s.table with
  | none => exact ⟨b'', rfl⟩
  | some j =>
    have hbuild := buildVlan_alone (vlanImageOf vid s) vid m (s := { s with tblBuf := b'' }) hs
    refine ⟨_, _, s.drawCount, ?_, vlanWritten_build hc vid hm s.regs.maskMux (vlanImageOf vid s)⟩
    change complete .ok (setIndex j (tblWrite j (buildVlan (vlanImageOf vid s) vid m { s with tblBuf := b'' }).1
      (buildVlan (vlanImageOf vid s) vid m { s with tblBuf := b'' }).2)) = _
    rw [hbuild]
    exact completeVlan_alone vid _ _ j _ b'' s.drawCount hs

theorem exec_addVlan {s : State} {vid : Vid} {m0 m1 m2 m3 : Word} (hlive : Live s) (hvid : s.a.vid = some vid)
    (h0 : s.a.mask0 = some m0) (h1 : s.a.mask1 = some m1) (h2 : s.a.mask2 = some m2) (h3 : s.a.mask3 = some m3) :
    exec .addVlan s = addVlanWith vid (operandMasks s.cfg m0 m1 m2 m3) s := by
  change execAddVlan s = _
  rw [execAddVlan, whenCreated_live s _ hlive, hvid, withArg_some, h0, withArg_some, h1, withArg_some, h2, withArg_some,
    h3, withArg_some]
  rfl

/-- Settles O34: R240 with the operand masks, which fit their fields. -/
theorem addVlanWritesTheEntry : Obligations.AddVlanWritesTheEntry := by
  rintro s vid m0 m1 m2 m3 ⟨hlive, hs⟩ hc hvid h0 h1 h2 h3
  rw [exec_addVlan hlive hvid h0 h1 h2 h3]
  exact addVlanWith_alone vid hs hc (masksFit_operandMasks hc m0 m1 m2 m3)

theorem exec_vlanAddModify {s : State} {vid : Vid} {m0 m1 m2 m3 : Word} (hlive : Live s) (hvid : s.a.vid = some vid)
    (h0 : s.a.mask0 = some m0) (h1 : s.a.mask1 = some m1) (h2 : s.a.mask2 = some m2) (h3 : s.a.mask3 = some m3) :
    exec .vlanAddModify s =
      let found := scan (vlanMatches vid) s
      let old := existingMasks (indexOf found.1) found.2
      addVlanWith vid (modifiedMasks old.1 (operandMasks s.cfg m0 m1 m2 m3)) old.2 := by
  change execVlanAddModify s = _
  rw [execVlanAddModify, whenCreated_live s _ hlive, hvid, withArg_some, h0, withArg_some, h1, withArg_some, h2,
    withArg_some, h3, withArg_some]
  rfl

theorem existingMasks_alone (vid : Vid) {s : State} (hs : Alone s) :
    ∃ b k, existingMasks (firstIndex (vlanMatches vid) s.cfg.n s.table) s =
      (vlanMasksFor vid s, { s with tblBuf := b, drawCount := k }) := by
  unfold vlanMasksFor
  cases firstIndex (vlanMatches vid) s.cfg.n s.table with
  | none => exact ⟨s.tblBuf, s.drawCount, rfl⟩
  | some j =>
    obtain ⟨k, hflood⟩ := getFlood_alone (Table.entry s.table j) (s := { s with tblBuf := Table.entry s.table j }) hs
    refine ⟨Table.entry s.table j, k, ?_⟩
    simp only [existingMasks, tblRead_alone j s hs, vlanGet_eq _ (vlanPlace_memberList _),
      vlanGet_eq _ (vlanPlace_forceUntagMsk _), hflood]
    rfl

theorem masksFit_vlanMasksFor (vid : Vid) (s : State) : MasksFit s.cfg (vlanMasksFor vid s) := by
  unfold vlanMasksFor
  split
  · exact masksFit_vlanMasksOf s.cfg s.regs.maskMux _
  · exact masksFit_zero s.cfg

/-- Settles O35: R240 with the existing masks modified under the operand ports. -/
theorem vlanAddModifyMergesTheMasks : Obligations.VlanAddModifyMergesTheMasks := by
  rintro s vid m0 m1 m2 m3 ⟨hlive, hs⟩ hc hvid h0 h1 h2 h3
  obtain ⟨b, hfound, hscan⟩ := indexOf_scan_alone (vlanMatches vid) hs
  obtain ⟨b', k, hold⟩ := existingMasks_alone vid (s := { s with tblBuf := b }) hs
  rw [exec_vlanAddModify hlive hvid h0 h1 h2 h3]
  simp only [hfound, hscan]
  rw [hold]
  have hfit := masksFit_modifiedMasks (masksFit_vlanMasksFor vid s) (masksFit_operandMasks hc m0 m1 m2 m3)
  have hadded := addVlanWith_alone vid (s := { s with tblBuf := b', drawCount := k }) hs hc hfit
  unfold AddedVlan at hadded
  dsimp only at hadded
  cases hslot : slotFor (vlanMatches vid) s.cfg.n s.table with
  | some j =>
    rw [hslot] at hadded
    exact hadded
  | none =>
    rw [hslot] at hadded
    obtain ⟨b'', hnext⟩ := hadded
    exact ⟨b'', k, hnext⟩

end Sys2Proof.Machine
end

section
/-! SUPPORT. VLAN_DEL_MODIFY and DEL_VLAN alone (R235, R242, R243): what DelModify comes to, and what the commands
answer. -/

namespace Sys2Proof.Machine

/-! ### DelModify (R235) -/

theorem freeVlan_eq (e : Image) (vid : Vid) (s : State) :
    freeVlan e vid s = (freedVlan s.cfg e, setUntagBit vid false s) := by
  obtain ⟨d, hd⟩ := Option.isSome_iff_exists.1 (vlanPlace_forceUntagMsk s.cfg)
  simp only [freeVlan, setUntag_eq, freedVlan, hd, setVlanField_of_some e 0 hd]
  rfl

/-- The image of R235 with the masks `m`: the untag mask, the inline flood masks, the members. -/
def narrowedImage (c : Cfg) (e : Image) (m : VlanMasks) : Image :=
  floodMemImage c (setVlanField c e .forceUntagMsk m.untag) m

theorem vlanIdx_setUntag {c : Cfg} (hc : cfgWf c = true) (e : Image) (u : Word) :
    vlanFieldOf c (setVlanField c e .forceUntagMsk u) .regMcastIdx = vlanFieldOf c e .regMcastIdx ∧
      vlanFieldOf c (setVlanField c e .forceUntagMsk u) .unregMcastIdx = vlanFieldOf c e .unregMcastIdx :=
  ⟨vlanFieldOf_setVlanField_other hc e u (by simp), vlanFieldOf_setVlanField_other hc e u (by simp)⟩

theorem floodBank_setUntag {c : Cfg} (hc : cfgWf c = true) (mux : Vector Word 8) (e : Image) (u reg unreg : Word) :
    floodBank c mux (setVlanField c e .forceUntagMsk u) reg unreg = floodBank c mux e reg unreg := by
  obtain ⟨hreg, hunreg⟩ := vlanIdx_setUntag hc e u
  rw [floodBank, hreg, hunreg, ← floodBank]

/-- With no member left DelModify frees the VLAN. -/
theorem delModify_free {e : Image} {vid : Vid} {pm : Word} {s : State}
    (h : vlanFieldOf s.cfg e .memberList &&& ~~~pm = 0) :
    delModify e vid pm s = (freedVlan s.cfg e, setUntagBit vid false s) := by
  simp only [delModify, vlanGet_eq e (vlanPlace_memberList s.cfg), h, if_true, freeVlan_eq]

/-- With a member left DelModify, alone, narrows the four masks. -/
theorem delModify_narrow {e : Image} {vid : Vid} {pm : Word} {s : State} (hs : Alone s) (hc : cfgWf s.cfg = true)
    (h : vlanFieldOf s.cfg e .memberList &&& ~~~pm ≠ 0) :
    let m := narrowed (vlanMasksOf s.cfg s.regs.maskMux e) (vlanFieldOf s.cfg e .memberList &&& ~~~pm)
    ∃ k, delModify e vid pm s = (narrowedImage s.cfg e m, setUntagBit vid (m.untag.getLsbD 0)
      { withBank s (floodBank s.cfg s.regs.maskMux e m.reg m.unreg) with drawCount := k }) := by
  intro m
  obtain ⟨k, hget⟩ := getFlood_alone e hs
  have hset := setFlood_alone (setVlanField s.cfg e .forceUntagMsk m.untag) m.reg m.unreg
    (s := setUntagBit vid (m.untag.getLsbD 0) { s with drawCount := k }) hs
  refine ⟨k, ?_⟩
  have hbody : delModify e vid pm s =
      let flood := setFlood (setVlanField s.cfg e .forceUntagMsk m.untag) m.reg m.unreg
        (setUntagBit vid (m.untag.getLsbD 0) { s with drawCount := k })
      vlanSet flood.1 .memberList m.mem flood.2 := by
    simp only [delModify, vlanGet_eq e (vlanPlace_memberList s.cfg), vlanGet_eq e (vlanPlace_forceUntagMsk s.cfg),
      hget, setUntag_eq, if_neg h]
    rfl
  rw [hbody, hset, ← floodBank_setUntag hc s.regs.maskMux e m.untag]
  exact vlanSet_eq _ _ (vlanPlace_memberList _)

/-! ### The narrowed entry (R235) -/

/-- With equal indices both flood masks are read from one bank register, so both are written back equal (R233). -/
theorem masksWritten_narrowed (c : Cfg) (mux : Vector Word 8) (e : Image) (mem : Word) :
    masksWritten c e (narrowed (vlanMasksOf c mux e) mem) = narrowed (vlanMasksOf c mux e) mem := by
  unfold masksWritten
  split
  next h =>
    obtain ⟨hind, hidx⟩ := h
    simp only [vlanMasksOf, narrowed, hind, hidx, if_true]
  next => rfl

theorem vlanNarrowed_narrow {c : Cfg} (hc : cfgWf c = true) (mux : Vector Word 8) {old : Image} {mem : Word}
    (hvlan : entryType old = .vlan) (hmem : Fits c .memberList mem) :
    let m := narrowed (vlanMasksOf c mux old) mem
    VlanNarrowed c mem mux (floodBank c mux old m.reg m.unreg) old (narrowedImage c old m) := by
  intro m
  have hfit : MasksFit c m := masksFit_narrowed (masksFit_vlanMasksOf c mux old) hmem
  obtain ⟨hreg, hunreg⟩ := vlanIdx_setUntag hc old m.untag
  refine ⟨?_, ?_, ?_, ?_, ?_, bankKept_floodBank c mux old m.reg m.unreg, ?_⟩
  · rw [narrowedImage, entryType_floodMemImage hc, entryType_setVlanField hc, hvlan]
  · rw [narrowedImage, getVid_floodMemImage hc, getVid_setVlanField hc]
  · have huntag := vlanFieldOf_setVlanField_same old hc (vlanPlace_forceUntagMsk c) hfit.untag
    rw [narrowedImage, ← floodBank_setUntag hc mux old m.untag, vlanMasksOf_floodMemImage hc mux _ hfit huntag,
      masksWritten, hreg, hunreg, ← masksWritten, masksWritten_narrowed]
  · rw [narrowedImage, vlanFieldOf_floodMemImage hc _ _ (by simp), hreg]
  · rw [narrowedImage, vlanFieldOf_floodMemImage hc _ _ (by simp), hunreg]
  · refine keptOutside_floodMemImage (keptOutside_setVlanField (keptOutside_refl _ old) (fun d hd => ?_) _)
      (fun _ hd => hd) m
    exact List.mem_filterMap.2 ⟨.forceUntagMsk, by simp, hd⟩

/-! ### VLAN_DEL_MODIFY and DEL_VLAN (R242, R243) -/

theorem entryType_of_vlanMatches {vid : Vid} {e : Image} (h : vlanMatches vid e = true) : entryType e = .vlan := by
  simp only [vlanMatches, isVlan, Bool.and_eq_true, beq_iff_eq] at h
  exact h.1

theorem pred_of_firstIndex {pred : Image → Bool} {n j : Nat} {t : Table} (h : firstIndex pred n t = some j) :
    pred (Table.entry t j) = true := by
  simpa using List.find?_some h

/-- What DelModify with the ports `pm` leaves of the entry at `j`: the VLAN freed when no member is left, and otherwise
narrowed (R235). -/
theorem delModify_alone (vid : Vid) (pm : Word) {s : State} {j : Nat} (hs : Alone s) (hc : cfgWf s.cfg = true)
    (hvlan : entryType (Table.entry s.table j) = .vlan) :
    let image := Table.entry s.table j
    let old := vlanMasksOf s.cfg s.regs.maskMux image
    let mem := old.mem &&& ~~~pm
    ∃ e g k, delModify image vid pm { s with tblBuf := image } =
        (e, setUntagBit vid (if mem = 0 then false else (old.untag &&& mem).getLsbD 0)
          { withBank s g with tblBuf := image, drawCount := k }) ∧
      if mem = 0 then e = freedVlan s.cfg image ∧ g = s.regs.maskMux
      else VlanNarrowed s.cfg mem s.regs.maskMux g image e := by
  intro image old mem
  by_cases hmem : mem = 0
  · refine ⟨freedVlan s.cfg image, s.regs.maskMux, s.drawCount, ?_, ?_⟩
    · rw [if_pos hmem]
      exact delModify_free hmem
    · rw [if_pos hmem]
      exact ⟨rfl, rfl⟩
  · obtain ⟨k, hnarrow⟩ := delModify_narrow (vid := vid) (s := { s with tblBuf := image }) hs hc hmem
    have hfit : Fits s.cfg .memberList mem := (fits_vlanFieldOf image (vlanPlace_memberList s.cfg)).and _
    refine ⟨narrowedImage s.cfg image (narrowed old mem),
      floodBank s.cfg s.regs.maskMux image (narrowed old mem).reg (narrowed old mem).unreg, k, ?_, ?_⟩
    · rw [if_neg hmem]
      exact hnarrow
    · rw [if_neg hmem]
      exact vlanNarrowed_narrow hc s.regs.maskMux hvlan hfit

theorem exec_vlanDelModify {s : State} {vid : Vid} {m0 : Word} (hlive : Live s) (hvid : s.a.vid = some vid)
    (h0 : s.a.mask0 = some m0) :
    exec .vlanDelModify s =
      match scan (vlanMatches vid) s with
      | (none, s) => complete .notFound s
      | (some (i, _), s) =>
        let read := tblRead i s
        let image := delModify read.1 vid (portMask read.2.cfg m0) read.2
        complete .ok (setIndex i (tblWrite i image.1 image.2)) := by
  change execVlanDelModify s = _
  rw [execVlanDelModify, whenCreated_live s _ hlive, hvid, withArg_some, h0, withArg_some]
  rfl

/-- Settles O36: the first match is read again, and DelModify frees or narrows it. -/
theorem vlanDelModifyNarrowsTheMasks : Obligations.VlanDelModifyNarrowsTheMasks := by
  rintro s vid m0 ⟨hlive, hs⟩ hc hvid h0
  rw [exec_vlanDelModify hlive hvid h0]
  obtain ⟨j, hfirst, hscan⟩ | ⟨hnone, b, hscan⟩ := scan_alone_cases (vlanMatches vid) hs
  · have hvlan := entryType_of_vlanMatches (pred_of_firstIndex hfirst)
    obtain ⟨e, g, k, hmodify, hresult⟩ := delModify_alone vid (portMask s.cfg m0) hs hc hvlan
    have hread := tblRead_alone j { s with tblBuf := Table.entry s.table j } hs
    rw [hfirst, hscan]
    refine ⟨e, g, k, ?_, hresult⟩
    simp only [hread, hmodify]
    exact completeVlan_alone vid _ g j e _ k hs
  · rw [hnone, hscan]
    exact ⟨b, rfl⟩

/-- What DEL_VLAN does to an image, by the three conditions of the whole-VLAN delete (R243). -/
theorem delVlanImage_eq (force : Bool) (e : Image) (vid : Vid) (mask : Word) (s : State) :
    delVlanImage force e vid mask s =
      if force = true ∨ mask = 0 ∨ vlanFieldOf s.cfg e .memberList &&& ~~~mask = 0 then freeVlan e vid s
      else delModify e vid (mask &&& ~~~hostBit) s := by
  simp only [delVlanImage, vlanGet_eq e (vlanPlace_memberList s.cfg)]
  exact if_congr (by simp [or_assoc]) rfl rfl

/-- Sparing a port leaves a member where one was left (R243). -/
theorem and_not_ne_zero_of_sparing {old pm : Word} (u : Word) (h : old &&& ~~~pm ≠ 0) :
    old &&& ~~~(pm &&& ~~~u) ≠ 0 := by
  intro hzero
  refine h ?_
  have hpart : old &&& ~~~pm = old &&& ~~~(pm &&& ~~~u) &&& ~~~pm := by
    refine BitVec.eq_of_getLsbD_eq fun i hi => ?_
    simp only [BitVec.getLsbD_and, BitVec.getLsbD_not, decide_eq_true hi, Bool.true_and]
    cases pm.getLsbD i <;> simp
  rw [hpart, hzero]
  exact BitVec.zero_and

/-- DEL_VLAN deletes the whole VLAN with the ports `pm` (R243). -/
abbrev DeletesWhole (force : Bool) (mem pm : Word) : Prop := force = true ∨ pm = 0 ∨ mem &&& ~~~pm = 0

/-- What DEL_VLAN with the ports `pm` leaves of the entry at `j`: the VLAN freed, or narrowed to the members but the ports
other than the host port (R243). -/
theorem delVlanImage_alone (force : Bool) (vid : Vid) (pm : Word) {s : State} {j : Nat} (hs : Alone s)
    (hc : cfgWf s.cfg = true) (hvlan : entryType (Table.entry s.table j) = .vlan) :
    let image := Table.entry s.table j
    let old := vlanMasksOf s.cfg s.regs.maskMux image
    let mem := old.mem &&& ~~~(pm &&& ~~~1)
    ∃ e g k ub, delVlanImage force image vid pm { s with tblBuf := image } =
        (e, setUntagBit vid ub { withBank s g with tblBuf := image, drawCount := k }) ∧
      (DeletesWhole force old.mem pm → ub = false ∧ e = freedVlan s.cfg image ∧ g = s.regs.maskMux) ∧
      (¬ DeletesWhole force old.mem pm →
        ub = (old.untag &&& mem).getLsbD 0 ∧ VlanNarrowed s.cfg mem s.regs.maskMux g image e) := by
  intro image old mem
  have himage := delVlanImage_eq force image vid pm { s with tblBuf := image }
  by_cases hwhole : DeletesWhole force old.mem pm
  · refine ⟨freedVlan s.cfg image, s.regs.maskMux, s.drawCount, false, ?_, fun _ => ⟨rfl, rfl, rfl⟩, absurd hwhole⟩
    exact himage.trans ((if_pos hwhole).trans (freeVlan_eq image vid _))
  · obtain ⟨e, g, k, hmodify, hresult⟩ := delModify_alone vid (pm &&& ~~~1) hs hc hvlan
    have hmem : mem ≠ 0 := and_not_ne_zero_of_sparing 1 fun hzero => hwhole (.inr (.inr hzero))
    rw [if_neg hmem] at hmodify hresult
    exact ⟨e, g, k, _, himage.trans ((if_neg hwhole).trans hmodify), fun h => absurd h hwhole, fun _ => ⟨rfl, hresult⟩⟩

theorem exec_delVlan {s : State} {force : Bool} {vid : Vid} {m0 : Word} (hlive : Live s) (hvid : s.a.vid = some vid)
    (h0 : s.a.mask0 = some m0) :
    exec (.delVlan force) s =
      match scan (vlanMatches vid) s with
      | (none, s) => complete .notFound s
      | (some (i, _), s) =>
        let read := tblRead i s
        let image := delVlanImage force read.1 vid (portMask read.2.cfg m0) read.2
        complete .ok (setIndex i (tblWrite i image.1 image.2)) := by
  change execDelVlan force s = _
  rw [execDelVlan, whenCreated_live s _ hlive, hvid, withArg_some, h0, withArg_some]
  rfl

/-- Settles O37: the first match is read again, and freed or narrowed by R243. -/
theorem delVlanFreesOrNarrows : Obligations.DelVlanFreesOrNarrows := by
  rintro s force vid m0 ⟨hlive, hs⟩ hc hvid h0
  rw [exec_delVlan hlive hvid h0]
  obtain ⟨j, hfirst, hscan⟩ | ⟨hnone, b, hscan⟩ := scan_alone_cases (vlanMatches vid) hs
  · have hvlan := entryType_of_vlanMatches (pred_of_firstIndex hfirst)
    obtain ⟨e, g, k, ub, hdelete, hresult⟩ := delVlanImage_alone force vid (portMask s.cfg m0) hs hc hvlan
    have hread := tblRead_alone j { s with tblBuf := Table.entry s.table j } hs
    rw [hfirst, hscan]
    refine ⟨e, g, k, ub, ?_, hresult⟩
    simp only [hread, hdelete]
    exact completeVlan_alone vid ub g j e _ k hs
  · rw [hnone, hscan]
    exact ⟨b, rfl⟩

end Sys2Proof.Machine
end

section
/-! SUPPORT. SET_UNREG_MCAST and SET_ALLMULTI alone (R244, R245): both are one loop that toggles ports in the unregistered
flood mask of the VLAN entries it picks, in the image or in the mask bank. -/

namespace Sys2Proof.Machine

/-! ### One toggle (R244, R245) -/

/-- A second toggle of the same ports changes nothing: entries that share a bank register toggle it once. -/
theorem toggleMask_idem (en : Bool) (u m : Word) : toggleMask en (toggleMask en u m) m = toggleMask en u m := by
  cases en with
  | true => simp [toggleMask, BitVec.or_assoc]
  | false => simp [toggleMask, BitVec.and_assoc]

/-- Of a toggle of a bank register the bits of the P ports are stored. -/
theorem toggleMask_and (en : Bool) (u m all : Word) :
    toggleMask en (u &&& all) m &&& all = toggleMask en (u &&& all) (m &&& all) := by
  refine BitVec.eq_of_getLsbD_eq fun i hi => ?_
  cases en with
  | true =>
    simp only [toggleMask, if_true, BitVec.getLsbD_and, BitVec.getLsbD_or]
    cases all.getLsbD i <;> simp
  | false =>
    simp only [toggleMask, Bool.false_eq_true, if_false, BitVec.getLsbD_and, BitVec.getLsbD_not, decide_eq_true hi,
      Bool.true_and]
    cases all.getLsbD i <;> simp

/-- A VLAN image with ports toggled in its inline unregistered flood mask. -/
def toggledImage (c : Cfg) (en : Bool) (m : Word) (e : Image) : Image :=
  setVlanField c e .unregMcastMsk (toggleMask en (vlanFieldOf c e .unregMcastMsk) m)

theorem toggleUnreg_inline {en : Bool} {m : Word} {i : Nat} {e : Image} {s : State} (h : ¬ indirect s.cfg = true) :
    toggleUnreg en m i e s = tblWrite i (toggledImage s.cfg en m e) s := by
  obtain ⟨-, hunreg⟩ := vlanPlace_msk h
  simp only [toggleUnreg, if_neg h, vlanGet_eq e hunreg, vlanSet_eq e _ hunreg, toggledImage]

/-- The bank after the ports are toggled in its register `k`. -/
def toggledBank (c : Cfg) (en : Bool) (m : Word) (mux : Vector Word 8) (k : Nat) : Vector Word 8 :=
  storeMux c mux k (toggleMask en (muxMask c mux k) m)

/-- Alone, the toggle through the bank of the entry just read: MaybeRewrite changes no entry. -/
theorem toggleUnreg_indirect_alone (en : Bool) (m : Word) (i : Nat) {s : State} (hs : Alone s)
    (h : indirect s.cfg = true) :
    ∃ d, toggleUnreg en m i (Table.entry s.table i) { s with tblBuf := Table.entry s.table i } =
      { withBank s (toggledBank s.cfg en m s.regs.maskMux
          (vlanFieldOf s.cfg (Table.entry s.table i) .unregMcastIdx).toNat) with
        tblBuf := Table.entry s.table i, drawCount := d } := by
  set e := Table.entry s.table i
  set k := (vlanFieldOf s.cfg e .unregMcastIdx).toNat with hk
  have hget := vlanGet_eq (s := { s with tblBuf := e }) e (vlanPlace_idx h).2
  obtain ⟨d, hread⟩ := readMux_alone k (s := { s with tblBuf := e }) hs
  have hwrite := memWrite_maskMux_alone k (toggleMask en (muxMask s.cfg s.regs.maskMux k) m)
    (s := { s with tblBuf := e, drawCount := d }) hs
  refine ⟨d + 1, ?_⟩
  simp only [toggleUnreg, if_pos h, hget, ← hk, hread, hwrite]
  exact maybeRewrite_alone (i := i)
    (s := { withBank s (toggledBank s.cfg en m s.regs.maskMux k) with drawCount := d }) hs

/-! ### One round -/

/-- A round of the loop: the toggle in an entry that `pick` takes. -/
def toggleRound (pick : Image → Bool) (en : Bool) (m : Word) (i : Nat) (s : State) : State :=
  let (e, s) := tblRead i s
  if pick e then toggleUnreg en m i e s else s

/-- The VLAN entries that SET_ALLMULTI takes: those with the port among the members, or all (R245). -/
def allmultiPicks (c : Cfg) (any : Bool) (port : BitVec 5) (e : Image) : Bool :=
  isVlan e && (any || (vlanFieldOf c e .memberList).getLsbD port.toNat)

theorem unregEntry_eq (en : Bool) (m : Word) (i : Nat) (s : State) :
    unregEntry en m i s = toggleRound isVlan en m i s := rfl

theorem allmultiEntry_alone (en any : Bool) (port : BitVec 5) (i : Nat) {s : State} (hs : Alone s) :
    allmultiEntry en any port i s = toggleRound (allmultiPicks s.cfg any port) en hostBit i s := by
  have hget := vlanGet_eq (s := { s with tblBuf := Table.entry s.table i }) (Table.entry s.table i)
    (vlanPlace_memberList s.cfg)
  simp only [allmultiEntry, toggleRound, allmultiPicks, tblRead_alone i s hs, hget]
  cases isVlan (Table.entry s.table i) with
  | false => rfl
  | true => cases any <;> rfl

theorem toggleRound_alone (pick : Image → Bool) (en : Bool) (m : Word) (i : Nat) {s : State} (hs : Alone s) :
    toggleRound pick en m i s =
      if pick (Table.entry s.table i) then
        toggleUnreg en m i (Table.entry s.table i) { s with tblBuf := Table.entry s.table i }
      else { s with tblBuf := Table.entry s.table i } := by
  simp only [toggleRound, tblRead_alone i s hs]

theorem toggleRound_inline_alone (pick : Image → Bool) (en : Bool) (m : Word) (i : Nat) {s : State} (hs : Alone s)
    (h : ¬ indirect s.cfg = true) :
    TableBecomes s (Function.update (Table.entry s.table) i
        (if pick (Table.entry s.table i) then toggledImage s.cfg en m (Table.entry s.table i)
          else Table.entry s.table i))
      (toggleRound pick en m i s) := by
  rw [toggleRound_alone pick en m i hs]
  split
  · rw [toggleUnreg_inline (s := { s with tblBuf := Table.entry s.table i }) h]
    exact tableBecomes_tblWrite i _ _ hs
  · rw [Function.update_eq_self]
    exact tableBecomes_self s _ s.drawCount

/-! ### The mask bank (R44, R244) -/

/-- From one bank to the other the ports `m` are toggled in the registers named, and the others are kept. -/
def BankToggled (c : Cfg) (en : Bool) (m : Word) (named : Nat → Prop) (before after : Vector Word 8) : Prop :=
  ∀ x, x < 8 →
    (named x → muxMask c after x = toggleMask en (muxMask c before x) (m &&& portMaskAll c)) ∧
      (¬ named x → after[x]? = before[x]?)

section Bank

variable {c : Cfg} {en : Bool} {m : Word} {before mid after : Vector Word 8} {P Q : Nat → Prop}

theorem bankToggled_none (h : ∀ x, ¬ P x) : BankToggled c en m P before before :=
  fun x _ => ⟨fun hx => absurd hx (h x), fun _ => rfl⟩

theorem bankToggled_one (k : Nat) : BankToggled c en m (fun x => k = x) before (toggledBank c en m before k) := by
  refine fun x hx => ⟨?_, fun hne => storeMux_other _ (Ne.symm hne)⟩
  rintro rfl
  rw [toggledBank, muxMask_storeMux_same _ _ hx]
  exact toggleMask_and en _ m _

theorem BankToggled.congr (h : BankToggled c en m P before after) (hPQ : ∀ x, P x ↔ Q x) :
    BankToggled c en m Q before after :=
  fun x hx => by simpa only [hPQ] using h x hx

/-- A register that both steps toggle is toggled once, since the toggle is idempotent. -/
theorem BankToggled.trans (h : BankToggled c en m P before mid) (h' : BankToggled c en m Q mid after) :
    BankToggled c en m (fun x => P x ∨ Q x) before after := by
  intro x hx
  obtain ⟨hP, hnP⟩ := h x hx
  obtain ⟨hQ, hnQ⟩ := h' x hx
  have mask_of_eq {a b : Vector Word 8} (heq : a[x]? = b[x]?) : muxMask c a x = muxMask c b x := by
    rw [muxMask, heq, muxMask]
  refine ⟨fun hor => ?_, fun hnor => ?_⟩
  · by_cases hp : P x <;> by_cases hq : Q x
    · rw [hQ hq, hP hp, toggleMask_idem]
    · rw [mask_of_eq (hnQ hq), hP hp]
    · rw [hQ hq, mask_of_eq (hnP hp)]
    · exact absurd hor (by simp [hp, hq])
  · rw [not_or] at hnor
    rw [hnQ hnor.2, hnP hnor.1]

end Bank

/-- From `s` to `t` the ports `m` are toggled in the bank registers named, and nothing else changes but TBLBUF and the
count of free values. -/
def BankBecomes (en : Bool) (m : Word) (named : Nat → Prop) (s t : State) : Prop :=
  ∃ g b k, t = { withBank s g with tblBuf := b, drawCount := k } ∧
    BankToggled s.cfg en m named s.regs.maskMux g

theorem toggleRound_indirect_alone (pick : Image → Bool) (en : Bool) (m : Word) (i : Nat) {s : State} (hs : Alone s)
    (h : indirect s.cfg = true) :
    BankBecomes en m (fun x => pick (Table.entry s.table i) = true ∧
        (vlanFieldOf s.cfg (Table.entry s.table i) .unregMcastIdx).toNat = x) s (toggleRound pick en m i s) := by
  rw [toggleRound_alone pick en m i hs]
  split
  next hpick =>
    obtain ⟨d, htoggle⟩ := toggleUnreg_indirect_alone en m i hs h
    exact ⟨_, _, d, htoggle, (bankToggled_one _).congr fun x => by simp [hpick]⟩
  next hpick =>
    exact ⟨s.regs.maskMux, Table.entry s.table i, s.drawCount, rfl, bankToggled_none fun x hx => hpick hx.1⟩

/-- A loop whose rounds each toggle the registers that their index names, alone, toggles those of every index it
visits. -/
theorem forEntries_bank_alone {body : Nat → State → State} {c : Cfg} {t : Table} {en : Bool} {m : Word}
    {named : Nat → Nat → Prop}
    (hbody : ∀ i s, Alone s → s.cfg = c → s.table = t → BankBecomes en m (named i) s (body i s))
    (n i : Nat) (s : State) (hs : Alone s) (hc : s.cfg = c) (ht : s.table = t) :
    BankBecomes en m (fun x => ∃ j, (i ≤ j ∧ j < i + n) ∧ named j x) s (forEntries body n i s) := by
  induction n generalizing i s with
  | zero => exact ⟨s.regs.maskMux, s.tblBuf, s.drawCount, rfl, bankToggled_none fun x ⟨j, hj, _⟩ => by omega⟩
  | succ n ih =>
    obtain ⟨g, b, k, hround, hbank⟩ := hbody i s hs hc ht
    have hrest := ih (i + 1) (body i s) (by rw [hround]; exact hs) (by rw [hround]; exact hc) (by rw [hround]; exact ht)
    rw [hround] at hrest
    obtain ⟨g', b', k', hrest, hbank'⟩ := hrest
    refine ⟨g', b', k', by rw [forEntries, hround, hrest], (hbank.trans hbank').congr fun x => ⟨?_, ?_⟩⟩
    · rintro (hfirst | ⟨j, hj, hnamed⟩)
      · exact ⟨i, by omega, hfirst⟩
      · exact ⟨j, by omega, hnamed⟩
    · rintro ⟨j, hj, hnamed⟩
      obtain rfl | hne := eq_or_ne j i
      · exact .inl hnamed
      · exact .inr ⟨j, by omega, hnamed⟩

/-! ### The loop over the table -/

/-- What the loop leaves of `s` when it toggles the ports `m` in the entries that `pick` takes: the bank registers they
name when INDIRECT, and otherwise their images. -/
def Toggled (pick : Image → Bool) (en : Bool) (m : Word) (s : State) (tb : Table) (g : Vector Word 8) : Prop :=
  (indirect s.cfg = true → (∀ j, Table.entry tb j = Table.entry s.table j) ∧
    BankToggled s.cfg en m (fun x => ∃ j, j < s.cfg.n ∧ pick (Table.entry s.table j) = true ∧
      (vlanFieldOf s.cfg (Table.entry s.table j) .unregMcastIdx).toNat = x) s.regs.maskMux g) ∧
  (indirect s.cfg = false → g = s.regs.maskMux ∧
    ∀ j, Table.entry tb j =
      if j < s.cfg.n ∧ pick (Table.entry s.table j) = true then toggledImage s.cfg en m (Table.entry s.table j)
      else Table.entry s.table j)

theorem toggleLoop_alone {body : Nat → State → State} {pick : Image → Bool} {en : Bool} {m : Word} {s : State}
    (hs : Alone s) (hbody : ∀ i u, Alone u → u.cfg = s.cfg → body i u = toggleRound pick en m i u) :
    ∃ tb b g k, forEntries body s.cfg.n 0 s = { withBank s g with table := tb, tblBuf := b, drawCount := k } ∧
      Toggled pick en m s tb g := by
  by_cases hind : indirect s.cfg = true
  · have hround (i : Nat) (u : State) (hu : Alone u) (hc : u.cfg = s.cfg) (ht : u.table = s.table) :
        BankBecomes en m (fun x => pick (Table.entry s.table i) = true ∧
          (vlanFieldOf s.cfg (Table.entry s.table i) .unregMcastIdx).toNat = x) u (body i u) := by
      rw [hbody i u hu hc, ← hc, ← ht]
      exact toggleRound_indirect_alone pick en m i hu (hc ▸ hind)
    obtain ⟨g, b, k, hloop, hbank⟩ := forEntries_bank_alone hround s.cfg.n 0 s hs rfl rfl
    refine ⟨s.table, b, g, k, hloop, fun _ => ⟨fun _ => rfl, ?_⟩, by simp [hind]⟩
    exact hbank.congr fun x => by simp
  · have hround (i : Nat) (u : State) (hu : Alone u) (hc : u.cfg = s.cfg) :
        TableBecomes u (Function.update (Table.entry u.table) i
          (if pick (Table.entry u.table i) then toggledImage s.cfg en m (Table.entry u.table i)
            else Table.entry u.table i)) (body i u) := by
      rw [hbody i u hu hc, ← hc]
      exact toggleRound_inline_alone pick en m i hu (hc ▸ hind)
    obtain ⟨tb, b, k, hloop, hentry⟩ := forEntries_alone
      (f := fun e => if pick e then toggledImage s.cfg en m e else e) hround s.cfg.n 0 s hs rfl
    refine ⟨tb, b, s.regs.maskMux, k, hloop, fun h => absurd h hind, fun _ => ⟨rfl, fun j => ?_⟩⟩
    rw [hentry]
    simp [ite_and]

/-! ### SET_UNREG_MCAST and SET_ALLMULTI (R244, R245) -/

theorem exec_setUnregMcast {s : State} {en : Bool} {m0 : Word} (hlive : Live s) (h0 : s.a.mask0 = some m0) :
    exec (.setUnregMcast en) s =
      complete .ok (forEntries (unregEntry en (portMask s.cfg m0)) s.cfg.n 0 s) := by
  change execSetUnregMcast en s = _
  rw [execSetUnregMcast, whenCreated_live s _ hlive, h0, withArg_some]

theorem toggledImage_of_some {c : Cfg} {st w : Nat} (en : Bool) (m : Word) (e : Image)
    (hd : vlanPlace c .unregMcastMsk = some (st, w)) :
    toggledImage c en m e = setField e st w (toggleMask en (getField e st w) m) := by
  rw [toggledImage, setVlanField_of_some e _ hd, vlanFieldOf_of_some e hd]

/-- Settles O38: the loop that takes every VLAN entry. -/
theorem setUnregMcastTogglesEveryVlan : Obligations.SetUnregMcastTogglesEveryVlan := by
  rintro s en m0 ⟨hlive, hs⟩ h0
  obtain ⟨tb, b, g, k, hloop, hind, hinl⟩ := toggleLoop_alone (pick := isVlan) hs fun i u _ _ =>
    unregEntry_eq en (portMask s.cfg m0) i u
  refine ⟨tb, b, g, k, ?_, fun h => ?_, fun h => ?_⟩
  · rw [exec_setUnregMcast hlive h0, hloop]
    rfl
  · obtain ⟨htable, hbank⟩ := hind h
    refine ⟨htable, fun x hx => ?_⟩
    obtain ⟨hnamed, hother⟩ := hbank x hx
    rw [portMask, BitVec.and_assoc, BitVec.and_self] at hnamed
    exact ⟨hnamed, fun hnone => hother fun ⟨j, hj, hvlan, hidx⟩ => hnone j hj hvlan hidx⟩
  · obtain ⟨hbank, htable⟩ := hinl h
    exact ⟨hbank, fun j st w hd => by rw [htable, toggledImage_of_some en _ _ hd]⟩

theorem exec_setAllmulti {s : State} {en any : Bool} {port : BitVec 5} (hlive : Live s) :
    exec (.setAllmulti en any port) s =
      if any || portOk s.cfg port then complete .ok (forEntries (allmultiEntry en any port) s.cfg.n 0 s)
      else complete .invalidArgument s :=
  whenCreated_live s _ hlive

theorem allmultiPicks_iff (c : Cfg) (any : Bool) (port : BitVec 5) (e : Image) :
    allmultiPicks c any port e = true ↔
      isVlan e = true ∧ (any = true ∨ (vlanFieldOf c e .memberList).getLsbD port.toNat = true) := by
  simp only [allmultiPicks, Bool.and_eq_true, Bool.or_eq_true]

/-- Settles O39: the port decides, and then the loop takes the VLAN entries that `allmultiPicks` names. -/
theorem setAllmultiTogglesTheHostBit : Obligations.SetAllmultiTogglesTheHostBit := by
  rintro s en any port ⟨hlive, hs⟩ picks
  refine ⟨fun ⟨hany, hport⟩ => ?_, fun hok => ?_⟩
  · rw [exec_setAllmulti hlive, if_neg (by simp [hany, portOk, hport])]
    rfl
  · obtain ⟨tb, b, g, k, hloop, hind, hinl⟩ := toggleLoop_alone (pick := allmultiPicks s.cfg any port) hs
      fun i u hu hc => hc ▸ allmultiEntry_alone en any port i hu
    simp only [allmultiPicks_iff] at hind hinl
    refine ⟨tb, b, g, k, ?_, fun h => ?_, fun h => ?_⟩
    · rw [exec_setAllmulti hlive, if_pos (by simpa [portOk] using hok), hloop]
      rfl
    · obtain ⟨htable, hbank⟩ := hind h
      refine ⟨htable, fun x hx => ?_⟩
      obtain ⟨hnamed, hother⟩ := hbank x hx
      refine ⟨fun ⟨j, ⟨hj, hpick⟩, hidx⟩ => hnamed ⟨j, hj, hpick, hidx⟩, fun hnone => ?_⟩
      exact hother fun ⟨j, hj, hpick, hidx⟩ => hnone j ⟨hj, hpick⟩ hidx
    · obtain ⟨hbank, htable⟩ := hinl h
      refine ⟨hbank, fun j st w hd => ⟨fun hpick => ?_, fun hpick => ?_⟩⟩
      · rw [htable, if_pos hpick, toggledImage_of_some en _ _ hd]
        rfl
      · rw [htable, if_neg hpick]

end Sys2Proof.Machine
end

section
/-! SUPPORT. What no instruction changes: the owner's registers and what CREATE fixed (R23, R25, R276), and the hardware
constants, which no step changes (R42, R43). -/

namespace Sys2Proof.Machine

/-! ### The owner's registers -/

/-- The argument registers, the configuration, what CREATE fixed of the engine, the agenda and the last CREATE's answer are
the same in both states. -/
def OwnersKept (s t : State) : Prop :=
  t.a = s.a ∧ t.cfg = s.cfg ∧ t.eng.created = s.eng.created ∧ t.eng.agingMode = s.eng.agingMode ∧
    t.eng.ctrl = s.eng.ctrl ∧ t.agenda = s.agenda ∧ t.lastCreate = s.lastCreate

theorem ownersKept_refl (s : State) : OwnersKept s s := ⟨rfl, rfl, rfl, rfl, rfl, rfl, rfl⟩

theorem Kept.ownersKept {s t : State} (h : Kept s t) : OwnersKept s t :=
  ⟨h.a, h.cfg, h.created, h.agingMode, h.ctrl, h.agenda, h.lastCreate⟩

/-- The switch of START and STOP touches `started` and the software timer only. -/
theorem ownersKept_switched {s u v : State} {b : Bool} (hu : Kept s u) (hv : Kept (armIfSw b u) v) :
    OwnersKept s (withStatus .ok (setStarted b v)) :=
  ⟨hv.a.trans hu.a, hv.cfg.trans hu.cfg, hv.created.trans hu.created, hv.agingMode.trans hu.agingMode,
    hv.ctrl.trans hu.ctrl, hv.agenda.trans hu.agenda, hv.lastCreate.trans hu.lastCreate⟩

theorem Answer.ownersKept {s t : State} (h : Answer s t) : OwnersKept s t := by
  cases h with
  | notCreated | faulted | refused => exact ownersKept_refl s
  | accessed _ h | completed _ _ h => exact h.ownersKept
  | switched _ _ hu _ hv => exact ownersKept_switched hu hv

theorem step_arg {s : State} {w : ArgWrite} {rest : List Move} (hf : s.faulted = false)
    (hag : s.agenda = .arg w :: rest) : step s = .next (writeArg w { s with agenda := rest }) := by
  simp [step, stepOnce, nextMove, runMove, hf, hag]

/-! ### The hardware constants (R42, R43) -/

theorem Answer.chip {s t : State} (h : Answer s t) : t.chip = s.chip := by
  cases h with
  | notCreated | faulted | refused => rfl
  | accessed _ h | completed _ _ h => exact h.chip
  | switched _ _ hu _ hv => exact hv.chip.trans hu.chip

theorem create_chip (c : CreateRequest) (identity : String) (s : State) : (create c identity s).chip = s.chip := by
  obtain ⟨r, h⟩ | ⟨o, k, h⟩ | ⟨cfg, k, h, -, -⟩ := create_cases c identity s <;> rw [h]
  · rfl
  · rfl
  · unfold settleTable
    split <;> rfl

theorem powerLoss_chip (s : State) : (powerLoss s).chip = s.chip := by
  unfold powerLoss
  dsimp only
  split <;> rfl

theorem runMove_chip (m : Move) {s t : State} (h : runMove m s = .next t) : t.chip = s.chip := by
  cases m with
  | request r =>
    obtain ⟨reason, rfl⟩ | ⟨i, hexec⟩ := presentRequest_next h
    · rfl
    · exact (exec_next hexec).chip
  | arg w =>
    cases h
    rfl
  | create c identity =>
    cases h
    exact create_chip c identity s
  | powerLoss =>
    simp only [runMove] at h
    split at h
    · cases h
    · cases h
      exact powerLoss_chip s
  | agent x =>
    cases h
    exact (agentStep_kept x s).chip

theorem step_chip {s t : State} (h : step s = .next t) : t.chip = s.chip := by
  obtain ⟨-, ⟨-, rfl | rfl⟩ | ⟨m, later, -, hmove⟩⟩ := step_next h
  · rfl
  · exact (agentStep_kept .tickWrite s).chip
  · exact runMove_chip m (s := { s with agenda := later }) hmove

/-- Settles O57: every answer of an instruction keeps the owner's registers, the owner's move is `writeArg`, and no move
changes the constants. -/
theorem instructionsKeepTheOwnersRegisters : Obligations.InstructionsKeepTheOwnersRegisters := by
  refine ⟨fun i s t h => (exec_next h).ownersKept, fun s w rest hf hag => ?_, fun s t h => step_chip h⟩
  rw [step_arg hf hag]
  cases w <;> rfl

end Sys2Proof.Machine
end

section
/-! SUPPORT. Where the field of a control lies (R270, R273, R276): under a well-formed configuration a present control
has, for every port, its field inside the named bits of one register of the map, and that is not TABLE_CONTROL. -/

namespace Sys2Proof.Machine

/-! ### The place of a control -/

/-- The effective port of a control (R273): a global control ignores the port. -/
def Descriptor.portFor (d : Descriptor) (port : BitVec 5) : Nat := if isGlobal d then 0 else port.toNat

/-- The effective place of a control for a port (R273). -/
def Descriptor.placeFor (d : Descriptor) (p : Nat) : CtrlPlace :=
  { off := d.base + p * d.portStride, shift := d.shift + p * d.shiftStride, width := d.width }

/-- The field of `width` bits from bit `shift` on, as a mask of its register. -/
def CtrlPlace.mask (d : CtrlPlace) : Word := maskWord d.width <<< d.shift

/-- A place has its register in the map, other than TABLE_CONTROL, and its field inside the named bits there. -/
structure FieldIn (c : Cfg) (d : CtrlPlace) (r : Reg) : Prop where
  listed : (d.off, r) ∈ regMap c
  ne : r ≠ .tableControl
  named : namedMask c r &&& d.mask = d.mask

theorem regAt_of_mem {c : Cfg} {off : Nat} {r : Reg} (hc : cfgWf c = true) (h : (off, r) ∈ regMap c) :
    regAt c off = some r := by
  simp only [cfgWf, offsetsOk, Bool.and_eq_true] at hc
  exact lookup_of_mem (offsetsApart_nodup hc.2.1) h

theorem FieldIn.regAt {c : Cfg} {d : CtrlPlace} {r : Reg} (h : FieldIn c d r) (hc : cfgWf c = true) :
    regAt c d.off = some r := regAt_of_mem hc h.listed

/-! ### The controls of the descriptor table -/

/-- The field of `width` bits from bit `shift` on lies inside the bits `m`. -/
def fieldWithin (shift width : Nat) (m : Word) : Bool := m &&& (maskWord width <<< shift) == maskWord width <<< shift

theorem fieldIn_of_within {c : Cfg} {d : CtrlPlace} {r : Reg} (hr : (d.off, r) ∈ regMap c) (hne : r ≠ .tableControl)
    (h : fieldWithin d.shift d.width (namedMask c r) = true) : FieldIn c d r := ⟨hr, hne, beq_iff_eq.1 h⟩

section Rows

variable {c : Cfg} {base shift width : Nat} {r : Reg}

theorem globalCtrl_fieldIn (name : Control) (p : Nat) (hr : (base, r) ∈ regMap c) (hne : r ≠ .tableControl)
    (h : fieldWithin shift width (namedMask c r) = true) :
    FieldIn c ((globalCtrl name base shift width).placeFor p) r := fieldIn_of_within hr hne h

theorem portCtrl_fieldIn (name : Control) {p : Nat} (hp : p < c.p) (h : fieldWithin shift width 0xFFFF283F = true) :
    FieldIn c ((portCtrl c name shift width).placeFor p) (.portctl p) := by
  refine fieldIn_of_within ?_ (by simp) h
  simp [Descriptor.placeFor, portCtrl, regMap, regMapBanks, hp, Nat.mul_comm]

theorem threadCtrl_fieldIn (name : Control) (p : Nat) (hpresent : isPresent c (threadCtrl c name shift width) = true)
    (h : fieldWithin shift width 0x0000803F = true) :
    FieldIn c ((threadCtrl c name shift width).placeFor p) .threadDef := by
  have hflag : c.hasThreadDef = true := hpresent
  refine fieldIn_of_within ?_ (by simp) h
  simp [Descriptor.placeFor, threadCtrl, regMap, regMapFlags, hflag]

theorem controlCtrl_fieldIn (name : Control) (p : Nat) (h : fieldWithin shift width 0xE00001FF = true) :
    FieldIn c ((globalCtrl name c.regOff.control shift width).placeFor p) .control :=
  globalCtrl_fieldIn name p (by simp [regMap, regMapBase]) (by simp) h

end Rows

/-- Every port has its bit in a register of the unknown-VLAN controls (R37). -/
theorem fieldWithin_portMaskAll (c : Cfg) : fieldWithin 0 c.p (portMaskAll c) = true := by
  simp [fieldWithin, portMaskAll]

theorem unknownVlanCtrls_fieldIn (c : Cfg) (p : Nat) :
    ∀ d ∈ unknownVlanCtrls c, ∃ r, FieldIn c (d.placeFor p) r := by
  by_cases hnu : nuControls c = true
  · have hrow (name : Control) {off : Nat} {r : Reg} (hmem : (off, r) ∈ regMapUnknown c) (hne : r ≠ .tableControl)
        (hmask : namedMask c r = portMaskAll c) : ∃ r, FieldIn c ((globalCtrl name off 0 c.p).placeFor p) r :=
      ⟨r, globalCtrl_fieldIn name p (by simp [regMap, hmem]) hne (hmask ▸ fieldWithin_portMaskAll c)⟩
    simp only [unknownVlanCtrls, hnu, if_true, List.forall_mem_cons]
    refine ⟨hrow _ (r := .unkMember) ?_ ?_ rfl, hrow _ (r := .unkUnreg) ?_ ?_ rfl, hrow _ (r := .unkReg) ?_ ?_ rfl,
      hrow _ (r := .unkUntag) ?_ ?_ rfl, List.forall_mem_nil _⟩ <;> simp [regMapUnknown, hnu]
  · have hrow (name : Control) {shift : Nat} (h : fieldWithin shift 6 0x3F3F3F3F = true) :
        ∃ r, FieldIn c ((globalCtrl name c.regOff.unknownVlan shift 6).placeFor p) r :=
      ⟨.unknownVlan, globalCtrl_fieldIn name p (by simp [regMap, regMapUnknown, hnu]) (by simp) h⟩
    simp [unknownVlanCtrls, hnu, hrow, fieldWithin, maskWord]

/-- R270, R273: the field of a present control, for a port below P. -/
theorem ctrlTable_fieldIn {c : Cfg} {p : Nat} (hp : p < c.p) :
    ∀ d ∈ ctrlTable c, isPresent c d = true → ∃ r, FieldIn c (d.placeFor p) r := by
  have hcontrol (name : Control) {shift width : Nat} (h : fieldWithin shift width 0xE00001FF = true) :
      ∃ r, FieldIn c ((globalCtrl name c.regOff.control shift width).placeFor p) r :=
    ⟨_, controlCtrl_fieldIn name p h⟩
  have hport (name : Control) {shift width : Nat} (h : fieldWithin shift width 0xFFFF283F = true) :
      ∃ r, FieldIn c ((portCtrl c name shift width).placeFor p) r := ⟨_, portCtrl_fieldIn name hp h⟩
  have hthread (name : Control) {shift width : Nat} (h : fieldWithin shift width 0x0000803F = true)
      (hpresent : isPresent c (threadCtrl c name shift width) = true) :
      ∃ r, FieldIn c ((threadCtrl c name shift width).placeFor p) r := ⟨_, threadCtrl_fieldIn name p hpresent h⟩
  simp only [ctrlTable, List.forall_mem_append]
  refine ⟨⟨⟨?_, ?_⟩, fun d hd _ => unknownVlanCtrls_fieldIn c p d hd⟩, ?_⟩
  · simp [hcontrol, fieldWithin, maskWord]
  · simp [hport, fieldWithin, maskWord]
  · simp +contextual [hport, hthread, fieldWithin, maskWord]

theorem length_ctrlTable (c : Cfg) : (ctrlTable c).length = 27 := by
  cases hnu : nuControls c <;> simp [ctrlTable, unknownVlanCtrls, hnu]

end Sys2Proof.Machine
end

section
/-! SUPPORT. CTRL_GET, CTRL_SET and the rate-limit setters (R271 to R275): what the checks of a control answer, what the
two micro-steps of a control read and write, and the statements about the four commands. -/

namespace Sys2Proof.Machine

/-! ### The checks (R271) -/

theorem p_pos_of_cfgWf {c : Cfg} (h : cfgWf c = true) : 0 < c.p := by
  simp only [cfgWf, Bool.and_eq_true, decide_eq_true_eq] at h
  obtain ⟨⟨⟨⟨⟨⟨⟨-, hp⟩, -⟩, -⟩, -⟩, -⟩, -⟩, -⟩ := h
  omega

section Checks

variable {s : State} {port cid : BitVec 5} {d : Descriptor}

theorem ctrlPlace_unknownId (h : 26 < cid.toNat) : ctrlPlace port cid s = .error .invalidArgument := if_pos h

variable (hctrl : s.eng.ctrl = ctrlTable s.cfg) (hd : (ctrlTable s.cfg)[cid.toNat]? = some d)

include hctrl hd

theorem ctrlPlace_of_descriptor : ctrlPlace port cid s =
    if isPresent s.cfg d then
      if d.portFor port < s.cfg.p then .ok (d.placeFor (d.portFor port)) else .error .invalidArgument
    else .error .unsupported := by
  have hid : ¬ 26 < cid.toNat := by
    have hlt := (List.getElem?_eq_some_iff.1 hd).1
    rw [length_ctrlTable] at hlt
    omega
  simp only [ctrlPlace, hid, if_false, hctrl, hd, Descriptor.portFor, Descriptor.placeFor, ← Nat.not_lt, ite_not]
  cases isPresent s.cfg d <;> rfl

theorem ctrlPlace_absent (h : isPresent s.cfg d = false) : ctrlPlace port cid s = .error .unsupported := by
  simp [ctrlPlace_of_descriptor hctrl hd, h]

theorem ctrlPlace_badPort (h : isPresent s.cfg d = true) (hg : isGlobal d = false) (hp : s.cfg.p ≤ port.toNat) :
    ctrlPlace port cid s = .error .invalidArgument := by
  simp [ctrlPlace_of_descriptor hctrl hd, h, Descriptor.portFor, hg, hp]

/-- R271, R273: a control that passes the checks has its field in the named bits of a register. -/
theorem ctrlPlace_fieldIn (hc : cfgWf s.cfg = true) (h : isPresent s.cfg d = true)
    (hp : isGlobal d = true ∨ port.toNat < s.cfg.p) :
    ctrlPlace port cid s = .ok (d.placeFor (d.portFor port)) ∧
      ∃ r, FieldIn s.cfg (d.placeFor (d.portFor port)) r := by
  have hport : d.portFor port < s.cfg.p := by
    unfold Descriptor.portFor
    split
    · exact p_pos_of_cfgWf hc
    next hg => exact hp.resolve_left hg
  exact ⟨by simp [ctrlPlace_of_descriptor hctrl hd, h, hport],
    ctrlTable_fieldIn hport d (List.mem_of_getElem? hd) h⟩

end Checks

/-! ### The field of a value read (R271, R272) -/

/-- A field shifted down to bit 0. -/
theorem ushiftRight_and_mask (d : CtrlPlace) (v : Word) :
    (v &&& d.mask) >>> d.shift = (v >>> d.shift) &&& maskWord d.width := by
  refine BitVec.eq_of_getLsbD_eq fun i hi => ?_
  simp only [CtrlPlace.mask, BitVec.getLsbD_ushiftRight, BitVec.getLsbD_and, BitVec.getLsbD_shiftLeft, getLsbD_maskWord]
  grind

/-- Named bits of a value read are those of the register: the free value plays no part (R48). -/
theorem readUnder_readReg {r : Reg} {k : Word} (s : State) (hk : namedMask s.cfg r &&& k = k) :
    readUnder (readReg r s).1 k = namedValue s r &&& k := by
  rw [readUnder_eq, ← hk, ← BitVec.and_assoc, readWord_readReg, BitVec.and_assoc]

/-- The field of a control as read. -/
theorem readUnder_field {d : CtrlPlace} {r : Reg} {s : State} (h : FieldIn s.cfg d r) :
    readUnder (readReg r s).1 d.mask >>> d.shift = (namedValue s r >>> d.shift) &&& maskWord d.width := by
  rw [readUnder_readReg s h.named, ushiftRight_and_mask]

theorem writtenMask_eq {r : Reg} (c : Cfg) (h : r ≠ .tableControl) : writtenMask c r = namedMask c r := by
  cases r with
  | tableControl => exact absurd rfl h
  | _ => rfl

/-- The value written back holds the new field, and the other named bits as read. -/
theorem insertField_readReg {r : Reg} (d : CtrlPlace) (val : Word) (s : State) (h : r ≠ .tableControl) :
    insertField (readReg r s).1 (writtenMask s.cfg r) d val &&& namedMask s.cfg r =
      ((namedValue s r &&& ~~~d.mask) ||| (val <<< d.shift)) &&& namedMask s.cfg r := by
  have hk : namedMask s.cfg r &&& (namedMask s.cfg r &&& ~~~d.mask) = namedMask s.cfg r &&& ~~~d.mask := by
    rw [← BitVec.and_assoc, BitVec.and_self]
  rw [insertField, ← CtrlPlace.mask, writtenMask_eq _ h, readUnder_readReg s hk, BitVec.and_or_distrib_right,
    BitVec.and_or_distrib_right, BitVec.and_comm (namedMask s.cfg r), BitVec.and_assoc, BitVec.and_assoc,
    BitVec.and_self, BitVec.and_assoc]

theorem and_not_maskWord_eq_zero_iff (val : Word) (w : Nat) : val &&& ~~~maskWord w = 0 ↔ val.toNat < 2 ^ w := by
  constructor
  · intro h
    refine Nat.lt_pow_two_of_testBit _ fun i hi => ?_
    have hbit := congrArg (·.getLsbD i) h
    simp only [BitVec.getLsbD_and, BitVec.getLsbD_not, getLsbD_maskWord] at hbit
    change val.getLsbD i = false
    by_cases h32 : i < 32
    · simpa [h32, show ¬ i < w by omega, ← BitVec.getLsbD_eq_getElem] using hbit
    · exact BitVec.getLsbD_of_ge val i (by omega)
  · intro h
    refine BitVec.eq_of_getLsbD_eq fun i hi => ?_
    by_cases hw : i < w
    · simp [getLsbD_maskWord, hw, hi]
    · have hbit : val.getLsbD i = false :=
        Nat.testBit_lt_two_pow (h.trans_le (Nat.pow_le_pow_right (by omega) (by omega)))
      simp [hbit]

/-! ### CTRL_GET (R271) -/

section Get

variable {s : State} {port cid : BitVec 5} (hlive : Live s)
include hlive

theorem exec_ctrlGet_error {st : Status} (h : ctrlPlace port cid s = .error st) :
    exec (.ctrlGet port cid) s = complete st s := by
  change execCtrlGet port cid s = _
  simp only [execCtrlGet, whenCreated_live s _ hlive, h]

theorem exec_ctrlGet_ok {d : CtrlPlace} {r : Reg} (hc : cfgWf s.cfg = true) (h : ctrlPlace port cid s = .ok d)
    (hr : FieldIn s.cfg d r) : exec (.ctrlGet port cid) s =
      complete .ok (setValue ((namedValue (interleave s) r >>> d.shift) &&& maskWord d.width) (memRead r s).2) := by
  have hfield : readUnder (memRead r s).1 d.mask >>> d.shift = _ :=
    readUnder_field (s := interleave s) ((interleave_kept s).cfg.symm ▸ hr)
  change execCtrlGet port cid s = _
  simp only [execCtrlGet, whenCreated_live s _ hlive, h, hr.regAt hc, ← hfield]
  rfl

end Get

/-- Settles O40: the checks decide, and the read answers the named bits of the field. -/
theorem ctrlGetAnswersTheField : Obligations.CtrlGetAnswersTheField := by
  intro s port cid hlive hc hctrl
  refine ⟨fun hid => ?_, fun d hd => ⟨fun habs => ?_, fun hpres hg hp => ?_, fun hpres hp => ?_⟩⟩
  · exact exec_ctrlGet_error hlive (ctrlPlace_unknownId hid)
  · exact exec_ctrlGet_error hlive (ctrlPlace_absent hctrl hd habs)
  · exact exec_ctrlGet_error hlive (ctrlPlace_badPort hctrl hd hpres hg hp)
  · obtain ⟨hplace, r, hr⟩ := ctrlPlace_fieldIn hctrl hd hc hpres hp
    obtain ⟨k, hread⟩ := readReg_frame r (interleave s)
    refine ⟨r, k, hr.regAt hc, ?_⟩
    rw [exec_ctrlGet_ok hlive hc hplace hr, memRead, hread]
    rfl

/-! ### CTRL_SET (R272) -/

section Set

variable {s : State} {port cid : BitVec 5} {val : Word}

theorem ctrlSetBody_error {st : Status} (h : ctrlPlace port cid s = .error st) :
    ctrlSetBody port cid val s = .ok (st, s) := by
  simp only [ctrlSetBody, h]

theorem ctrlSetBody_tooWide {d : CtrlPlace} (h : ctrlPlace port cid s = .ok d) (hval : 2 ^ d.width ≤ val.toNat) :
    ctrlSetBody port cid val s = .ok (.invalidArgument, s) := by
  have hwide : val &&& ~~~maskWord d.width ≠ 0 := by
    rw [ne_eq, and_not_maskWord_eq_zero_iff]
    omega
  simp only [ctrlSetBody, h, if_pos hwide]

/-- The read and the write of CTRL_SET, and the named bits of the value written. -/
theorem ctrlSetBody_ok {d : CtrlPlace} {r : Reg} (hc : cfgWf s.cfg = true) (h : ctrlPlace port cid s = .ok d)
    (hr : FieldIn s.cfg d r) (hval : val.toNat < 2 ^ d.width) :
    ∃ w k, ctrlSetBody port cid val s =
        .ok (.ok, writeReg r w (interleave { interleave s with drawCount := k })) ∧
      w &&& namedMask s.cfg r =
        ((namedValue (interleave s) r &&& ~~~d.mask) ||| (val <<< d.shift)) &&& namedMask s.cfg r := by
  have hfits := (and_not_maskWord_eq_zero_iff val d.width).2 hval
  have hcfg : (interleave s).cfg = s.cfg := (interleave_kept s).cfg
  obtain ⟨k, hread⟩ := readReg_frame r (interleave s)
  refine ⟨insertField (readReg r (interleave s)).1 (writtenMask s.cfg r) d val, k, ?_, ?_⟩
  · simp only [ctrlSetBody, h, hfits, hr.regAt hc, memRead, memWrite, hread, hcfg, ne_eq, not_true_eq_false, if_false]
  · rw [← hcfg]
    exact insertField_readReg d val (interleave s) hr.ne

theorem exec_ctrlSet {u : State} {st : Status} (hlive : Live s) (hv : s.a.value = some val)
    (h : ctrlSetBody port cid val s = .ok (st, u)) : exec (.ctrlSet port cid) s = complete st u := by
  change execCtrlSet port cid s = _
  simp only [execCtrlSet, whenCreated_live s _ hlive, hv, withArg_some, h]

theorem exec_ctrlSet_undef (hlive : Live s) (hv : s.a.value = none) :
    exec (.ctrlSet port cid) s = faultOutcome .undefArg s :=
  undefinedArgumentFaults (.ctrlSet port cid) s hlive (by simp [argsDefined, hv])

end Set

/-- Settles O41: the checks decide, with the width of the value after them, and then the body reads and writes. -/
theorem ctrlSetReplacesTheField : Obligations.CtrlSetReplacesTheField := by
  intro s port cid hlive hc hctrl
  refine ⟨exec_ctrlSet_undef hlive, fun val hv => ?_⟩
  refine ⟨fun hid => ?_, fun d hd => ⟨fun habs => ?_, fun hpres hg hp => ?_, fun hpres hp hval => ?_,
    fun hpres hp hval => ?_⟩⟩
  · exact exec_ctrlSet hlive hv (ctrlSetBody_error (ctrlPlace_unknownId hid))
  · exact exec_ctrlSet hlive hv (ctrlSetBody_error (ctrlPlace_absent hctrl hd habs))
  · exact exec_ctrlSet hlive hv (ctrlSetBody_error (ctrlPlace_badPort hctrl hd hpres hg hp))
  · obtain ⟨hplace, -⟩ := ctrlPlace_fieldIn hctrl hd hc hpres hp
    exact exec_ctrlSet hlive hv (ctrlSetBody_tooWide hplace hval)
  · obtain ⟨hplace, r, hr⟩ := ctrlPlace_fieldIn hctrl hd hc hpres hp
    obtain ⟨w, k, hbody, hw⟩ := ctrlSetBody_ok hc hplace hr hval
    exact ⟨r, w, k, hr.regAt hc, exec_ctrlSet hlive hv hbody, hw⟩

/-! ### RATELIMIT_MC and RATELIMIT_BC (R274, R275) -/

/-- A pps value in units of the granularity is a word, whatever its size. -/
theorem toNat_units (pps : Word) : (BitVec.ofNat 32 (pps.toNat / 1000)).toNat = pps.toNat / 1000 := by
  rw [BitVec.toNat_ofNat, Nat.mod_eq_of_lt (by omega)]

theorem ctrlTable_mcastLimit (c : Cfg) : (ctrlTable c)[mcastLimitId.toNat]? = some (portCtrl c .mcastLimit 16 8) := by
  cases hnu : nuControls c <;> simp [ctrlTable, unknownVlanCtrls, hnu, mcastLimitId]

theorem ctrlTable_bcastLimit (c : Cfg) : (ctrlTable c)[bcastLimitId.toNat]? = some (portCtrl c .bcastLimit 24 8) := by
  cases hnu : nuControls c <;> simp [ctrlTable, unknownVlanCtrls, hnu, bcastLimitId]

section Limit

variable {s : State} {port cid : BitVec 5} {pps : Word} {name : Control} {sh : Nat} (hc : cfgWf s.cfg = true)
  (hctrl : s.eng.ctrl = ctrlTable s.cfg) (hd : (ctrlTable s.cfg)[cid.toNat]? = some (portCtrl s.cfg name sh 8))

include hc hctrl hd

/-- R274: a rate below the granularity, above 255 units, or for a port at or above P is rejected. -/
theorem rateLimit_rejects
    (h : s.cfg.p ≤ port.toNat ∨ (pps ≠ 0 ∧ pps.toNat / 1000 = 0) ∨ 255 < pps.toNat / 1000) :
    rateLimit port cid pps s = complete .invalidArgument s := by
  unfold rateLimit
  dsimp only [rlMinPps]
  split
  · rfl
  next hgran =>
    have hbody : ctrlSetBody port cid (BitVec.ofNat 32 (pps.toNat / 1000)) s = .ok (.invalidArgument, s) := by
      by_cases hp : s.cfg.p ≤ port.toNat
      · exact ctrlSetBody_error (ctrlPlace_badPort hctrl hd rfl rfl hp)
      · obtain ⟨hplace, -⟩ := ctrlPlace_fieldIn hctrl hd hc rfl (.inr (not_le.1 hp))
        have hwide : 255 < pps.toNat / 1000 := (h.resolve_left hp).resolve_left hgran
        exact ctrlSetBody_tooWide hplace (by rw [toNat_units]; exact hwide)
    rw [hbody]

/-- R274, R275 alone: the field of the port's PORTCTL register takes the units, and the results report the rounding. -/
theorem rateLimit_writes (hs : Alone s) (hsh : fieldWithin sh 8 0xFFFF283F = true) (hp : port.toNat < s.cfg.p)
    (hgran : pps = 0 ∨ pps.toNat / 1000 ≠ 0) (hmax : pps.toNat / 1000 ≤ 255) :
    ∃ w k, rateLimit port cid pps s =
        complete .ok (setAux (BitVec.ofNat 32 (pps.toNat % 1000)) (setValue (BitVec.ofNat 32 (pps.toNat / 1000 * 1000))
          (writeReg (.portctl port.toNat) w { s with drawCount := k }))) ∧
      w &&& 0xFFFF283F = (((s.regs.portctl[port.toNat]?).getD 0 &&& ~~~((0xFF : Word) <<< sh)) |||
        (BitVec.ofNat 32 (pps.toNat / 1000) <<< sh)) &&& 0xFFFF283F := by
  have hplace : ctrlPlace port cid s = .ok ((portCtrl s.cfg name sh 8).placeFor port.toNat) :=
    (ctrlPlace_fieldIn hctrl hd hc rfl (.inr hp)).1
  have hval : (BitVec.ofNat 32 (pps.toNat / 1000)).toNat < 2 ^ 8 := by rw [toNat_units]; omega
  obtain ⟨w, k, hbody, hw⟩ := ctrlSetBody_ok hc hplace (portCtrl_fieldIn name hp hsh) hval
  simp only [interleave_alone s hs, interleave_alone { s with drawCount := k } hs] at hbody hw
  have hok : ¬ (pps ≠ 0 ∧ pps.toNat / 1000 = 0) := by tauto
  refine ⟨w, k, ?_, hw⟩
  unfold rateLimit
  dsimp only [rlMinPps]
  rw [if_neg hok, hbody]

end Limit

/-- A rate-limit setter is `rateLimit` on its control (R274, R275). -/
theorem exec_ratelimit {s : State} {i : Instr} {port : BitVec 5} {pps : Word} {sh : Nat} (hlive : Live s)
    (hv : s.a.value = some pps) (hi : (i = .ratelimitMc port ∧ sh = 16) ∨ (i = .ratelimitBc port ∧ sh = 24)) :
    ∃ cid name, exec i s = rateLimit port cid pps s ∧
      (ctrlTable s.cfg)[cid.toNat]? = some (portCtrl s.cfg name sh 8) ∧ fieldWithin sh 8 0xFFFF283F = true := by
  obtain ⟨rfl, rfl⟩ | ⟨rfl, rfl⟩ := hi
  · refine ⟨mcastLimitId, .mcastLimit, ?_, ctrlTable_mcastLimit _, by decide⟩
    change execRatelimitMc port s = _
    rw [execRatelimitMc, whenCreated_live s _ hlive, hv, withArg_some]
  · refine ⟨bcastLimitId, .bcastLimit, ?_, ctrlTable_bcastLimit _, by decide⟩
    change execRatelimitBc port s = _
    rw [execRatelimitBc, whenCreated_live s _ hlive, hv, withArg_some]

/-- Settles O42: both setters are `rateLimit` on the row of their control, which rejects or writes. -/
theorem rateLimitWritesTheLimit : Obligations.RateLimitWritesTheLimit := by
  rintro s i port pps sh ⟨hlive, hs⟩ hc hctrl hv hi
  obtain ⟨cid, name, hexec, hd, hsh⟩ := exec_ratelimit hlive hv hi
  refine ⟨fun h => ?_, fun hp hgran hmax => ?_⟩
  · rw [hexec, rateLimit_rejects hc hctrl hd h]
    rfl
  · obtain ⟨w, k, hwrite, hw⟩ := rateLimit_writes hc hctrl hd hs hsh hp hgran hmax
    refine ⟨k, ?_⟩
    rw [hexec, hwrite, ← hw]
    rfl

end Sys2Proof.Machine
end

section
/-! SUPPORT. The aging agents (R300, R302, R304): what an aging pass makes of one entry, the software tick's read and
write, and the hardware counter. -/

namespace Sys2Proof.Machine

/-! ### The aging pass entry by entry (R304) -/

theorem ageEntry_of_not_ageable {e : Image} (rule : AgingPassRule) (d : Word) (h : ageable e = false) :
    ageEntry rule e d = e := by
  simp [ageEntry, h]

/-- `Freed(E)` keeps the other bits or zeroes them. -/
theorem freed_cases (e : Image) (keep : Bool) : freed e keep = setType e .free ∨ freed e keep = 0 := by
  cases keep with
  | true => exact .inl rfl
  | false => exact .inr rfl

/-- Of the aging classes an ageable entry has one of two, told apart by the high bit of UCAST_TYPE (R32, R183). -/
theorem ucastType_of_ageable {e : Image} (h : ageable e = true) :
    ucastType e = if e.getLsbD 63 then .touched else .untouched := by
  simp only [ageable_eq, Bool.and_eq_true] at h
  rw [ucastType_eq, if_pos h.2]

theorem ageEntry_exact_touched {e : Image} (d : Word) (h : ageable e = true) (ht : e.getLsbD 63 = true) :
    ageEntry .exact e d = setUcastType e .untouched := by
  simp [ageEntry, h, ucastType_of_ageable h, ht]

theorem ageEntry_exact_untouched {e : Image} (d : Word) (h : ageable e = true) (ht : e.getLsbD 63 = false) :
    ageEntry .exact e d = setType e .free ∨ ageEntry .exact e d = 0 := by
  have hclass : ucastType e = .untouched := by rw [ucastType_of_ageable h, ht]; rfl
  have hfree : ageEntry .exact e d = freed e (d.getLsbD 0) := by simp [ageEntry, h, hclass]
  rw [hfree]
  exact freed_cases e _

/-- The LOOSE rule keeps, demotes or frees an entry, by the free value. -/
theorem ageEntry_loose_cases {e : Image} (d : Word) (h : ageable e = true) :
    ageEntry .loose e d = e ∨ ageEntry .loose e d = setUcastType e .untouched ∨
      ageEntry .loose e d = setType e .free ∨ ageEntry .loose e d = 0 := by
  simp only [ageEntry, h, if_true]
  split
  · exact .inl rfl
  · split
    · exact .inr (.inl rfl)
    · exact .inr (.inr (freed_cases e _))

/-- Settles O50: each entry below N is what `ageEntry` makes of it, by the rule and the aging class, and every other
entry is kept. -/
theorem agingPassAgesAgeableEntries : Obligations.AgingPassAgesAgeableEntries := by
  intro s
  obtain ⟨tb, k, hframe⟩ := agingPass_frame s
  refine ⟨tb, k, hframe, fun j => ?_⟩
  obtain ⟨d, hentry⟩ := agingPass_entry s j
  rw [hframe] at hentry
  dsimp only at hentry ⊢
  refine ⟨fun hkept => ?_, fun ⟨hj, hage, hrule⟩ => ?_, fun ⟨hj, hage, hrule⟩ => ?_⟩
  · split at hentry
    next hj => rw [hentry, ageEntry_of_not_ageable _ _ (hkept.resolve_left (by omega))]
    next => exact hentry
  · rw [if_pos hj, hrule] at hentry
    rw [hentry]
    exact ⟨ageEntry_exact_touched d hage, ageEntry_exact_untouched d hage⟩
  · rw [if_pos hj, hrule] at hentry
    rw [hentry]
    exact ageEntry_loose_cases d hage

/-! ### CONTROL read and written (R35, R124) -/

/-- CONTROL's named fields as read: CLEAR and AGEOUT read 0. -/
theorem readUnder_control (s : State) :
    readUnder (readReg .control s).1 (namedMask s.cfg .control) = s.regs.control &&& controlRw := by
  have hrw : controlRw &&& (0xE00001FF : Word) = controlRw := by decide
  rw [readUnder_readReg s BitVec.and_self, namedValue, namedMask, BitVec.and_assoc, hrw]

/-- A write to CONTROL without AGEOUT stores the RW fields, and CLEAR empties the table. -/
theorem writeControl_of_no_ageout {v : Word} (s : State) (h : v.getLsbD ageoutBit = false) :
    writeControl v s = { s with
      regs := { s.regs with control := v &&& controlRw }, table := if v.getLsbD clearBit then [] else s.table } := by
  unfold writeControl
  rw [h]
  split <;> rfl

/-- A write to CONTROL with AGEOUT is the same write followed by an aging pass. -/
theorem writeControl_of_ageout {v : Word} (s : State) (h : v.getLsbD ageoutBit = true) :
    writeControl v s = agingPass { s with
      regs := { s.regs with control := v &&& controlRw }, table := if v.getLsbD clearBit then [] else s.table } := by
  unfold writeControl
  rw [h]
  split <;> rfl

/-! ### The software tick (R300) -/

theorem tickReadEnabled_iff {s : State} (hc : s.eng.created = true) :
    tickReadEnabled s = true ↔ s.eng.agingMode = .sw ∧ s.eng.swArmed = true ∧ s.eng.swPending = none := by
  simp [tickReadEnabled, swTimerPresent, hc, and_assoc]

theorem tickRead_of_enabled {s : State} (h : tickReadEnabled s = true) :
    ∃ k, tickRead s =
      { s with eng := { s.eng with swPending := some (readReg .control s).1 }, drawCount := k } := by
  obtain ⟨k, hread⟩ := readReg_frame .control s
  exact ⟨k, by simp only [tickRead, h, if_true, hread]⟩

/-- tick-write with a tick pending: the value read is written with AGEOUT set, and no tick is left. -/
theorem tickWrite_of_pending {s : State} {v : ReadValue} (h : swTimerPresent s = true) (hv : s.eng.swPending = some v) :
    tickWrite s =
      let t := writeControl (readUnder v 0xE00001FF ||| bitWord ageoutBit) s
      { t with eng := { t.eng with swPending := none } } := by
  simp only [tickWrite, h, hv, if_true]
  rfl

/-- Of the value that tick-write writes, AGEOUT is set and the other fields are those of the value read. -/
theorem ageoutPulse_fields (w : Word) :
    let v := w &&& 0xE00001FF ||| bitWord ageoutBit
    v.getLsbD ageoutBit = true ∧ v.getLsbD clearBit = w.getLsbD 30 ∧ v &&& controlRw = w &&& 0x800001FF := by
  refine ⟨?_, ?_, ?_⟩
  · simp [bitWord, ageoutBit]
  · simp [bitWord, ageoutBit, clearBit]
  · rw [BitVec.and_or_distrib_right, BitVec.and_assoc]
    exact BitVec.or_zero

/-- Settles O48: the read answers CONTROL's fields, the write is `writeControl` of what was read with AGEOUT set, and
neither steps where the timer is absent, disarmed or without the tick it needs. -/
theorem softwareTickPulsesAgeout : Obligations.SoftwareTickPulsesAgeout := by
  refine fun s hc => ⟨fun hen => ?_, fun hdis => ?_, fun v hm hv => ?_, fun hdis => ?_⟩
  · obtain ⟨k, hread⟩ := tickRead_of_enabled ((tickReadEnabled_iff hc).2 hen)
    refine ⟨_, k, hread, ?_⟩
    rw [← readUnder_eq]
    exact readUnder_control s
  · exact if_neg (mt (tickReadEnabled_iff hc).1 hdis)
  · obtain ⟨hage, hclear, hrw⟩ := ageoutPulse_fields (readWord v)
    have hpresent : swTimerPresent s = true := by simp [swTimerPresent, hc, hm]
    change tickWrite s = _
    rw [tickWrite_of_pending hpresent hv, readUnder_eq, writeControl_of_ageout s hage, hclear, hrw]
  · change tickWrite s = s
    obtain hm | hv := hdis
    · simp [tickWrite, swTimerPresent, hm]
    · simp [tickWrite, hv]

/-! ### The hardware counter (R302) -/

/-- Settles O49: HW_TICK is enabled by PERIOD alone, and the counter decides between the count and the pass. -/
theorem hardwareTickCountsDown : Obligations.HardwareTickCountsDown := by
  intro s hhw hc
  have hen : hwTickEnabled s = true ↔ s.regs.period ≠ 0 := by simp [hwTickEnabled, hhw, hc]
  obtain ⟨tb, k, hpass⟩ := agingPass_frame s
  refine ⟨fun hz => ?_, fun hp hcnt => ?_, fun hp hcnt => ?_⟩
  · exact if_neg (by simp [hen, hz])
  · simp only [agentStep, hwTick, hen.2 hp, if_true, hcnt]
  · simp only [agentStep, hwTick, hen.2 hp, if_true, if_neg (not_lt.2 hcnt), hpass]

end Sys2Proof.Machine
end

section
/-! SUPPORT. Before and at CREATE (R290, R299, R336): what runs before CREATE, and which checks a CREATE passes; and
STATUS_QUERY (R298). -/

namespace Sys2Proof.Machine

/-! ### Before CREATE (R299) -/

/-- Before CREATE every instruction is refused, whatever it is. -/
theorem exec_not_created (i : Instr) {s : State} (hf : s.faulted = false) (hc : s.eng.created = false) :
    exec i s = .next (refuse .notCreated s) := by
  have hgate (body : Host.Outcome State Fault Refusal) : whenCreated s body = .next (refuse .notCreated s) := by
    simp [whenCreated, hf, hc, refuseOutcome]
  cases i <;> exact hgate _

theorem step_request_not_created {s : State} {r : Request} {rest : List Move} (hf : s.faulted = false)
    (hc : s.eng.created = false) (hag : s.agenda = .request r :: rest) :
    step s = .next (refuse .notCreated { s with agenda := rest }) := by
  simp [step, stepOnce, nextMove, runMove, presentRequest, refuseOutcome, hf, hc, hag]

/-- Settles O5: requests, instructions and agent steps wait for `created`, and CREATE is refused once it is set. -/
theorem nothingRunsBeforeCreate : Obligations.NothingRunsBeforeCreate := by
  refine fun s hf => ⟨fun hc => ⟨fun r rest hag => ?_, fun i => ?_, fun x => ?_⟩, fun hc c identity => ?_⟩
  · exact step_request_not_created hf hc hag
  · exact exec_not_created i hf hc
  · exact agentStep_not_created x s hc
  · exact if_pos hc

/-! ### CREATE (R290, R336) -/

section Create

variable {c : CreateRequest} {identity : String} {s : State} {v : Variant} {n : Nat} (hc : s.eng.created = false)

include hc in
theorem create_unknownIdentity (hv : c.variants.lookup identity = none) :
    create c identity s = createFailed .unknownIdentity s := by
  simp [create, hc, hv]

variable (hv : c.variants.lookup identity = some v)

include hc hv in
theorem create_noEntryCount (hn : entryCount c v s.chip.statusValue = none) :
    create c identity s = createFailed .zeroCount s := by
  simp [create, hc, hv, hn]

variable (hn : entryCount c v s.chip.statusValue = some n)

include hc hv hn

theorem create_noPolicerCount (hp : policerCountMissing c v s.chip.statusValue = true) :
    create c identity s = createFailed .zeroCount s := by
  simp [create, hc, hv, hn, hp]

variable (hp : policerCountMissing c v s.chip.statusValue = false)
include hp

theorem create_badConfig (hwf : cfgWf (createCfg c v n) = false) : create c identity s = refuse .badConfig s := by
  simp [create, hc, hv, hn, hp, hwf]

/-- Past the checks a free value decides between CREATE_ALLOC and success. -/
theorem create_checked (hwf : cfgWf (createCfg c v n) = true) :
    create c identity s =
      if (drawBool s).1 then createFailed .alloc (drawBool s).2
      else install (createCfg c v n) (settleTable n (drawBool s).2) := by
  simp [create, hc, hv, hn, hp, hwf]

end Create

/-- What CREATE finds of the table: as it was, or every entry below `n` a free value of its own. -/
theorem settleTable_cases (n : Nat) (s : State) :
    ∃ tb k, settleTable n s = { s with table := tb, tableLost := false, drawCount := k } ∧
      (s.tableLost = false → tb = s.table ∧ k = s.drawCount) ∧
      (s.tableLost = true → ∀ j, j < n → Table.entry tb j = drawnImage (s.drawCount + 3 * j)) := by
  cases hl : s.tableLost with
  | false =>
    refine ⟨s.table, s.drawCount, ?_, fun _ => ⟨rfl, rfl⟩, by simp⟩
    rw [settleTable_kept n s hl, ← hl]
  | true =>
    refine ⟨redrawnTable n 0 s.drawCount s.table, s.drawCount + 3 * n, settleTable_redrawn n s hl, by simp, ?_⟩
    intro _ j hj
    rw [redrawnTable_entry, if_pos (by omega), Nat.sub_zero]

/-- Settles O47: the checks in their order, then the draw, then the installation on the settled table. -/
theorem createInstallsOrFails : Obligations.CreateInstallsOrFails := by
  refine fun c identity s hc => ⟨create_unknownIdentity hc, fun v hv => ⟨create_noEntryCount hc hv, fun n hn =>
    ⟨create_noPolicerCount hc hv hn, create_badConfig hc hv hn, fun hp hwf => ?_⟩⟩⟩
  rw [create_checked hc hv hn hp hwf]
  obtain ⟨tb, k, hsettle, hkept, hredrawn⟩ := settleTable_cases n (drawBool s).2
  cases (drawBool s).1 with
  | true => exact .inl rfl
  | false => exact .inr ⟨tb, k, by rw [hsettle]; rfl, hkept, hredrawn⟩

/-! ### STATUS_QUERY (R298) -/

theorem exec_statusQuery {s : State} (hlive : Live s) :
    exec .statusQuery s =
      if s.cfg.hasStatusReg then complete .ok (setValue (readWord (memRead .status s).1) (memRead .status s).2)
      else complete .unsupported s :=
  whenCreated_live s _ hlive

/-- Settles O46: the one micro-step reads STATUS, whose named bits are those of the constant. -/
theorem statusQueryAnswersStatus : Obligations.StatusQueryAnswersStatus := by
  refine fun s hlive => ⟨fun hno => ?_, fun hyes => ?_⟩
  · rw [exec_statusQuery hlive, hno]
    rfl
  · obtain ⟨k, hread⟩ := readReg_frame .status (interleave s)
    refine ⟨readWord (memRead .status s).1, k, ?_, ?_⟩
    · rw [exec_statusQuery hlive, if_pos hyes, show (memRead .status s).2 = _ from hread]
      rfl
    · rw [← (interleave_kept s).chip]
      exact readWord_readReg .status (interleave s)

end Sys2Proof.Machine
end

section
/-! SUPPORT. START and STOP (R296, R297, R301): the read-modify-writes of CONTROL, what the two commands do where no other
agent steps inside them, and that under every schedule STOP leaves the other agents without a step (R300, R302, R345). -/

namespace Sys2Proof.Machine

/-! ### Setting and clearing a bit of CONTROL alone (R296, R297) -/

theorem and_controlRw_idem (c : Word) : c &&& controlRw &&& controlRw = c &&& controlRw := by
  rw [BitVec.and_assoc, BitVec.and_self]

/-- ENABLE is one of the RW fields, so a write stores it (R35). -/
theorem or_enable_and_controlRw (c : Word) :
    (c &&& controlRw ||| bitWord enableBit) &&& controlRw = c &&& controlRw ||| bitWord enableBit := by
  have hrw : bitWord enableBit &&& controlRw = bitWord enableBit := by decide
  rw [BitVec.and_or_distrib_right, and_controlRw_idem, hrw]

section ControlAlone

variable {s : State} (hs : Alone s)
include hs

theorem setControlBit_alone (b : Nat) :
    ∃ k, setControlBit b s = writeControl (s.regs.control &&& controlRw ||| bitWord b) { s with drawCount := k } := by
  obtain ⟨k, hread⟩ := readReg_frame .control s
  refine ⟨k, ?_⟩
  rw [← readUnder_control s, setControlBit, memRead_alone _ _ hs]
  simp only [hread]
  exact memWrite_alone .control _ _ hs

theorem clearControlBit_alone (b : Nat) :
    ∃ k, clearControlBit b s =
      writeControl (s.regs.control &&& controlRw &&& ~~~bitWord b) { s with drawCount := k } := by
  obtain ⟨k, hread⟩ := readReg_frame .control s
  refine ⟨k, ?_⟩
  rw [← readUnder_control s, readUnder_eq, BitVec.and_assoc, ← readUnder_eq, clearControlBit, memRead_alone _ _ hs]
  simp only [hread]
  exact memWrite_alone .control _ _ hs

theorem setEnable_alone :
    ∃ k, setControlBit enableBit s = { s with
      regs := { s.regs with control := s.regs.control &&& controlRw ||| bitWord enableBit }, drawCount := k } := by
  obtain ⟨k, hset⟩ := setControlBit_alone hs enableBit
  have hclear : (s.regs.control &&& controlRw ||| bitWord enableBit).getLsbD clearBit = false := by
    simp [controlRw, bitWord, clearBit, enableBit]
  refine ⟨k, ?_⟩
  rw [hset, writeControl_of_no_ageout _ (by simp [controlRw, bitWord, ageoutBit, enableBit]),
    or_enable_and_controlRw, hclear]
  rfl

theorem setClear_alone :
    ∃ k, setControlBit clearBit s = { s with
      regs := { s.regs with control := s.regs.control &&& controlRw }, table := [], drawCount := k } := by
  obtain ⟨k, hset⟩ := setControlBit_alone hs clearBit
  have hstored : (s.regs.control &&& controlRw ||| bitWord clearBit) &&& controlRw = s.regs.control &&& controlRw := by
    rw [BitVec.and_or_distrib_right, and_controlRw_idem, show bitWord clearBit &&& controlRw = 0#32 by decide,
      BitVec.or_zero]
  have hclear : (s.regs.control &&& controlRw ||| bitWord clearBit).getLsbD clearBit = true := by
    simp [bitWord, clearBit]
  refine ⟨k, ?_⟩
  rw [hset, writeControl_of_no_ageout _ (by simp [controlRw, bitWord, ageoutBit, clearBit]), hstored, hclear]
  rfl

theorem clearEnable_alone :
    ∃ k, clearControlBit enableBit s = { s with
      regs := { s.regs with control := s.regs.control &&& controlRw &&& ~~~bitWord enableBit }, drawCount := k } := by
  obtain ⟨k, hclr⟩ := clearControlBit_alone hs enableBit
  have hstored : s.regs.control &&& controlRw &&& ~~~bitWord enableBit &&& controlRw =
      s.regs.control &&& controlRw &&& ~~~bitWord enableBit := by
    rw [BitVec.and_assoc, BitVec.and_comm (~~~bitWord enableBit), ← BitVec.and_assoc, and_controlRw_idem]
  have hclear : (s.regs.control &&& controlRw &&& ~~~bitWord enableBit).getLsbD clearBit = false := by
    simp [controlRw, clearBit]
  refine ⟨k, ?_⟩
  rw [hclr, writeControl_of_no_ageout _ (by simp [controlRw, ageoutBit]), hstored, hclear]
  rfl

end ControlAlone

/-! ### START alone (R296, R362) -/

/-- The two writes of CONTROL in START: ENABLE is set, and CLEAR empties the table. -/
theorem setEnable_setClear_alone {s : State} (hs : Alone s) :
    ∃ k, setControlBit clearBit (setControlBit enableBit s) = { s with
      regs := { s.regs with control := s.regs.control &&& controlRw ||| bitWord enableBit }
      table := [], drawCount := k } := by
  obtain ⟨k, henable⟩ := setEnable_alone hs
  obtain ⟨k', hclear⟩ := setClear_alone (s := { s with
    regs := { s.regs with control := s.regs.control &&& controlRw ||| bitWord enableBit }, drawCount := k }) hs
  refine ⟨k', ?_⟩
  rw [henable, hclear]
  simp only [or_enable_and_controlRw]

/-- AgingStart loads the timer in HW mode and arms it in SW mode (R296). -/
theorem agingStart_alone {s : State} {m : AgingMode} (hs : Alone s) (hm : s.eng.agingMode = m) :
    agingStart s = { s with
      regs := { s.regs with period := if m = .hw then BitVec.ofNat 24 (agingUnits s.cfg) else s.regs.period }
      ageCnt := if m = .hw then BitVec.ofNat 24 (agingUnits s.cfg) else s.ageCnt
      eng := { s.eng with swArmed := s.eng.swArmed || m == .sw } } := by
  cases m with
  | off =>
    have hstart : agingStart s = s := by simp only [agingStart, hm]
    simp [hstart, beq_eq_decide]
  | hw =>
    have hstart : agingStart s = memWrite .agingTimer (BitVec.ofNat 32 (agingUnits s.cfg)) s := by
      simp only [agingStart, hm]
    simp [hstart, memWrite_alone _ _ _ hs, writeReg, setRegs, BitVec.setWidth_ofNat_of_le, beq_eq_decide]
  | sw =>
    have hstart : agingStart s = setArmed true s := by simp only [agingStart, hm]
    simp [hstart, setArmed]

theorem exec_start {s : State} (hlive : Live s) :
    exec .start s = complete .ok (setStarted true (agingStart (setControlBit clearBit (setControlBit enableBit
      (memWrite .prescale (BitVec.ofNat 32 (s.cfg.fRef / rlMinPps)) s))))) :=
  whenCreated_live s _ hlive

/-- Settles O43: START's micro-steps alone, one after the other. -/
theorem startInitialises : Obligations.StartInitialises := by
  rintro s ⟨hlive, hs⟩
  obtain ⟨k, hbits⟩ := setEnable_setClear_alone
    (s := writeReg .prescale (BitVec.ofNat 32 (s.cfg.fRef / rlMinPps)) s) hs
  refine ⟨k, ?_⟩
  rw [exec_start hlive, memWrite_alone _ _ _ hs, agingStart_alone (by rw [hbits]; exact hs) rfl, hbits]
  rfl

/-! ### STOP alone (R297, R301) -/

/-- What STOP does after AgingStop: the table is kept or cleared, and ENABLE is cleared. -/
theorem maybeClear_clearEnable_alone {s : State} (hs : Alone s) :
    ∃ tb k, clearControlBit enableBit (maybeClear s) = { s with
        regs := { s.regs with control := s.regs.control &&& controlRw &&& ~~~bitWord enableBit }
        table := tb, drawCount := k } ∧ (tb = [] ∨ tb = s.table) := by
  unfold maybeClear
  dsimp only [drawBool]
  split
  · obtain ⟨k, hclear⟩ := setClear_alone (s := { s with drawCount := s.drawCount + 1 }) hs
    obtain ⟨k', henable⟩ := clearEnable_alone (s := { s with
      regs := { s.regs with control := s.regs.control &&& controlRw }, table := [], drawCount := k }) hs
    refine ⟨[], k', ?_, .inl rfl⟩
    rw [hclear, henable]
    simp only [and_controlRw_idem]
  · obtain ⟨k, henable⟩ := clearEnable_alone (s := { s with drawCount := s.drawCount + 1 }) hs
    exact ⟨s.table, k, henable, .inr rfl⟩

/-- AgingStop stops the counter in HW mode, and in SW mode completes a tick already read and disarms the timer. -/
theorem agingStop_alone {s : State} {m : AgingMode} (hs : Alone s) (hm : s.eng.agingMode = m) :
    agingStop s =
      let s0 := if m = .sw then tickWrite s else s
      { s0 with
        regs := { s0.regs with period := if m = .hw then 0 else s0.regs.period }
        ageCnt := if m = .hw then 0 else s0.ageCnt
        eng := { s0.eng with swArmed := if m = .sw then false else s0.eng.swArmed } } := by
  cases m with
  | off =>
    have hstop : agingStop s = s := by simp only [agingStop, hm]
    simp [hstop]
  | hw =>
    have hstop : agingStop s = memWrite .agingTimer 0 s := by simp only [agingStop, hm]
    simp [hstop, memWrite_alone _ _ _ hs, writeReg, setRegs]
  | sw =>
    have hstop : agingStop s = cancelTimer s := by simp only [agingStop, hm]
    simp [hstop, cancelTimer, interleave_alone s hs, setArmed]

theorem tickWrite_sched (s : State) : (tickWrite s).sched = s.sched := by
  obtain ⟨c, t, g, p, k, h⟩ := agentStep_frame .tickWrite s
  exact congrArg (·.sched) h

theorem exec_stop {s : State} (hlive : Live s) :
    exec .stop s = complete .ok (setStarted false (clearControlBit enableBit (maybeClear (agingStop s)))) :=
  whenCreated_live s _ hlive

/-- Settles O44: AgingStop by the aging mode, then the table and ENABLE. -/
theorem stopStops : Obligations.StopStops := by
  rintro s ⟨hlive, hs⟩ s0
  have hs0 : Alone (agingStop s) := by
    rw [agingStop_alone hs rfl]
    dsimp only
    split
    · exact (tickWrite_sched s).trans hs
    · exact hs
  obtain ⟨tb, k, htail, htb⟩ := maybeClear_clearEnable_alone hs0
  rw [agingStop_alone hs rfl] at htail htb
  refine ⟨tb, k, ?_, htb⟩
  rw [exec_stop hlive, agingStop_alone hs rfl, htail]
  rfl

/-! ### Agents without a step (R363) -/

/-- R363: with lookup disabled, the counter stopped, the timer disarmed and no tick pending no agent has a step. -/
theorem agentStep_of_isolated (x : AgentStep) {s : State} (hi : Isolated s) (hq : Quiet s) : agentStep x s = s := by
  obtain ⟨henable, hperiod, harmed⟩ := hi
  have hfwd (i : Nat) : fwdEnabled i s = false := by simp [fwdEnabled, henable]
  cases x with
  | tickRead =>
    have hoff : ¬ tickReadEnabled s = true := by
      simp only [tickReadEnabled, swTimerPresent, Bool.and_eq_true, beq_iff_eq]
      rintro ⟨⟨⟨-, hsw⟩, harm⟩, -⟩
      exact Bool.false_ne_true ((harmed hsw).symm.trans harm)
    exact if_neg hoff
  | tickWrite => simp [agentStep, tickWrite, hq]
  | hwTick =>
    have hoff : ¬ hwTickEnabled s = true := by
      simp only [hwTickEnabled, Bool.and_eq_true, Bool.not_eq_true', beq_eq_false_iff_ne]
      rintro ⟨⟨hhw, -⟩, hp⟩
      exact hp (hperiod hhw)
    exact if_neg hoff
  | fwdLearn i u => simp [agentStep, fwdLearn, hfwd]
  | fwdTouch i => simp [agentStep, fwdTouch, hfwd]
  | fwdMove i p => simp [agentStep, fwdMove, hfwd]

theorem agentSteps_of_isolated (xs : List AgentStep) {s : State} (hi : Isolated s) (hq : Quiet s) :
    agentSteps xs s = s := by
  induction xs with
  | nil => rfl
  | cons x xs ih => rw [agentSteps, agentStep_of_isolated x hi hq, ih]

/-! ### ENABLE and PERIOD through STOP under every schedule (R297) -/

/-- Whatever other agents do before the write, it clears ENABLE. -/
theorem clearControlBit_enable (s : State) :
    (clearControlBit enableBit s).regs.control.getLsbD enableBit = false := by
  obtain ⟨t, k, hwrite⟩ := writeControl_frame (readUnder (memRead .control s).1
    (namedMask (memRead .control s).2.cfg .control &&& ~~~bitWord enableBit)) (interleave (memRead .control s).2)
  have hcontrol := congrArg (·.regs.control.getLsbD enableBit) hwrite
  refine hcontrol.trans ?_
  simp [readUnder_eq, bitWord, enableBit]

/-- No other agent changes PERIOD, and neither does an access to CONTROL: only a write to AGING_TIMER does (R125). -/
theorem interleave_period (s : State) : (interleave s).regs.period = s.regs.period := by
  obtain ⟨c, t, g, p, k, q, h⟩ := interleave_frame s
  exact congrArg (·.regs.period) h

theorem memRead_period (r : Reg) (s : State) : (memRead r s).2.regs.period = s.regs.period := by
  obtain ⟨k, h⟩ := readReg_frame r (interleave s)
  exact (congrArg (·.regs.period) h).trans (interleave_period s)

theorem memWrite_control_period (v : Word) (s : State) : (memWrite .control v s).regs.period = s.regs.period := by
  obtain ⟨t, k, h⟩ := writeControl_frame v (interleave s)
  exact (congrArg (·.regs.period) h).trans (interleave_period s)

theorem setControlBit_period (b : Nat) (s : State) : (setControlBit b s).regs.period = s.regs.period :=
  (memWrite_control_period _ _).trans (memRead_period .control s)

theorem clearControlBit_period (b : Nat) (s : State) : (clearControlBit b s).regs.period = s.regs.period :=
  (memWrite_control_period _ _).trans (memRead_period .control s)

theorem maybeClear_period (s : State) : (maybeClear s).regs.period = s.regs.period := by
  simp only [maybeClear]
  split
  · exact setControlBit_period _ _
  · rfl

theorem agingStop_period {s : State} (hm : s.eng.agingMode = .hw) : (agingStop s).regs.period = 0 := by
  simp only [agingStop, hm]
  rfl

/-- What STOP leaves under every schedule: ENABLE is 0, the engine is not started, and PERIOD is 0 in HW mode. -/
theorem exec_stop_next {s t : State} (hlive : Live s) (h : exec .stop s = .next t) :
    t.regs.control.getLsbD enableBit = false ∧ t.eng.started = false ∧
      (s.eng.agingMode = .hw → t.regs.period = 0) := by
  cases (exec_stop hlive).symm.trans h
  refine ⟨clearControlBit_enable _, rfl, fun hm => ?_⟩
  exact (clearControlBit_period _ _).trans ((maybeClear_period _).trans (agingStop_period hm))

/-! ### After STOP (R297) -/

/-- Of an engine that is not started the invariant keeps the timer disarmed and no tick pending. -/
theorem Inv.stopped {s : State} (h : Inv s) (hc : s.eng.created = true) (hst : s.eng.started = false) :
    s.eng.swArmed = false ∧ Quiet s := by
  obtain ⟨-, -, harm, -⟩ := Inv.created h hc
  have hpending := (Inv.sound h hc).pending
  have hoff : s.eng.swArmed = false := by simpa [hst] using harm
  exact ⟨hoff, by simpa [hoff] using hpending⟩

/-- A configuration with hardware aging has no SW mode (R25). -/
theorem agingModeOf_hw {c : Cfg} (hhw : c.hasHwAutoaging = true) (hm : agingModeOf c ≠ .off) :
    agingModeOf c = .hw := by
  unfold agingModeOf at hm ⊢
  split at hm
  next => exact absurd rfl hm
  next hage => rw [if_neg hage, if_pos hhw]

/-- Settles O45: after STOP the engine is isolated with no tick pending, so that no agent has a step. -/
theorem nothingAgesAfterStop : Obligations.NothingAgesAfterStop := by
  intro s t hinv hlive hoff hexec xs
  have hanswer := exec_next hexec
  obtain ⟨-, hcfg, hcreated, hmode, -⟩ := hanswer.ownersKept
  obtain ⟨henable, hstarted, hperiod⟩ := exec_stop_next hlive hexec
  obtain ⟨harmed, hquiet⟩ := Inv.stopped (hanswer.inv hinv) (hcreated.trans hlive.2) hstarted
  obtain ⟨-, hmodeOf, -, -⟩ := Inv.created hinv hlive.2
  refine agentSteps_of_isolated xs ⟨henable, fun hhw => hperiod ?_, fun _ => harmed⟩ hquiet
  rw [hmodeOf] at hoff ⊢
  exact agingModeOf_hw (hcfg ▸ hhw) hoff

end Sys2Proof.Machine
end

section
/-! SUPPORT. What exceptional events leave (R333, R334, R346): a faulted machine is quiescent, every instruction answers
of any other, and POWER_LOSS redraws the registers and the table of an engine that is not started. -/

namespace Sys2Proof.Machine

/-! ### Faults and refusals (R333, R334) -/

theorem step_faulted {s : State} (hf : s.faulted = true) : step s = .fault .quiescent := if_pos hf

/-- Settles O6: a fault is quiescent, and each instruction's body answers. -/
theorem instructionsAnswerUnlessFaulted : Obligations.InstructionsAnswerUnlessFaulted := by
  refine fun s => ⟨fun hf => ⟨step_faulted hf, fun i => exec_faulted i hf⟩, fun hf i => ?_⟩
  obtain ⟨t, ht, -⟩ := exec_yields i hf
  exact ⟨t, ht⟩

/-! ### POWER_LOSS (R346) -/

theorem step_powerLoss {s : State} {rest : List Move} (hf : s.faulted = false) (hag : s.agenda = .powerLoss :: rest) :
    step s =
      if s.eng.started then .refused .powerLossWhileStarted else .next (powerLoss { s with agenda := rest }) := by
  simp [step, stepOnce, nextMove, runMove, hf, hag]

/-- Of a created engine every entry is redrawn. -/
theorem powerLoss_of_created {s : State} (hc : s.eng.created = true) :
    powerLoss s = redrawTable s.cfg.n (redrawRegs s) := if_pos hc

/-- Before CREATE the redraw of the entries is due. -/
theorem powerLoss_of_not_created {s : State} (hc : s.eng.created = false) :
    powerLoss s = { redrawRegs s with tableLost := true } := if_neg (Bool.eq_false_iff.1 hc)

theorem redrawTable_entry {n j : Nat} (s : State) (hj : j < n) :
    Table.entry (redrawTable n s).table j = drawnImage (s.drawCount + 3 * j) := by
  simp [redrawTable, redrawnTable_entry, hj]

/-- Settles O52: what is redrawn, by whether CREATE has fixed the number of entries. -/
theorem powerLossKeepsTheOwnersState : Obligations.PowerLossKeepsTheOwnersState := by
  refine fun s rest hf hag hwf => ⟨fun hst => ?_, fun hst => by rw [step_powerLoss hf hag, if_pos hst]⟩
  have hstep : step s = .next (powerLoss { s with agenda := rest }) := by simp [step_powerLoss hf hag, hst]
  cases hc : s.eng.created with
  | true =>
    rw [hstep, powerLoss_of_created (s := { s with agenda := rest }) hc]
    exact ⟨_, _, _, _, false, _, rfl, redrawnTable_wf _ _ _ _ hwf, nofun,
      fun _ => ⟨rfl, _, fun _ hj => redrawTable_entry (redrawRegs { s with agenda := rest }) hj⟩⟩
  | false =>
    rw [hstep, powerLoss_of_not_created (s := { s with agenda := rest }) hc]
    exact ⟨_, _, _, _, true, _, rfl, hwf, fun _ => rfl, nofun⟩

end Sys2Proof.Machine
end

section
/-! SUPPORT. The forwarding path (R345): the images that FWD-learn, FWD-touch and FWD-move write, and what one step of
it can do. -/

namespace Sys2Proof.Machine

/-! ### The aging class and the port written (R31, R32) -/

/-- The class of an ageable entry is UCAST_TYPE[0] = 1, and UCAST_TYPE[1] tells TOUCHED from UNTOUCHED (R32). -/
theorem getLsbD_setUcastType_ages (e : Image) (touched : Bool) (b : Nat) :
    (setUcastType e (if touched then .touched else .untouched)).getLsbD b =
      if b = 62 then true else if b = 63 then touched else e.getLsbD b := by
  have hcode : ucastTypeCode (if touched then .touched else .untouched) =
      (BitVec.ofBool touched ++ 1#1).setWidth 32 := by cases touched <;> rfl
  rw [setUcastType, hcode, getLsbD_setField, BitVec.getLsbD_setWidth, BitVec.getLsbD_append]
  obtain rfl | rfl | hb : b = 62 ∨ b = 63 ∨ ¬ (62 ≤ b ∧ b < 62 + 2 ∧ b < 96) := by omega
  · rfl
  · simp
  · rw [if_neg hb, if_neg (by omega), if_neg (by omega)]

theorem ucastType_setUcastType (e : Image) (u : UcastType) : ucastType (setUcastType e u) = u := by
  rw [ucastType, setUcastType, getField_setField_same e _ (by decide)]
  cases u <;> rfl

theorem getF_portNum_setUcastType (c : Cfg) (e : Image) (u : UcastType) :
    getF c (setUcastType e u) .portNum = getF c e .portNum :=
  getField_setField_apart (d := (62, 2)) (d' := (66, pnb c)) e _
    ((placesApart_iff _ _).2 (.inl (show 62 + 2 ≤ 66 by decide)))

/-- An address entry given a class that ages. -/
theorem ageable_setUcastType_touched {e : Image} (h : ageable e = true) : ageable (setUcastType e .touched) = true := by
  have hbit := getLsbD_setUcastType_ages e true
  rw [if_pos rfl] at hbit
  simp only [ageable_eq, Bool.and_eq_true] at h
  rw [ageable_eq, hbit, hbit, hbit]
  simpa using h.1

theorem ageable_setF_portNum (c : Cfg) (e : Image) (v : Word) : ageable (setF c e .portNum v) = ageable e := by
  have hbelow (b : Nat) (hb : b < 66) : (setF c e .portNum v).getLsbD b = e.getLsbD b :=
    getLsbD_setField_outside e v fun h => absurd h.1 (not_le.2 hb)
  simp only [ageable_eq, hbelow _ (show 60 < 66 by decide), hbelow _ (show 40 < 66 by decide),
    hbelow _ (show 62 < 66 by decide)]

section WellFormed

variable {c : Cfg} (hc : cfgWf c = true) {port : Nat} (hp : port < c.p)
include hc

/-- PORT_NUM lies inside the image (R6). -/
theorem portNum_inRange : codecInRange 66 (pnb c) = true := by
  have hlog : Nat.log2 (c.p - 1) < 5 := by
    have := p_le_of_cfgWf hc
    by_cases hz : c.p - 1 = 0
    · simp [hz]
    · exact (Nat.log2_lt hz).2 (by omega)
  exact (codecInRange_iff _ _).2 (by unfold pnb; omega)

include hp

theorem toNat_port : (BitVec.ofNat 32 port).toNat = port := by
  have := p_le_of_cfgWf hc
  rw [BitVec.toNat_ofNat]
  exact Nat.mod_eq_of_lt (by omega)

theorem getF_setF_portNum (e : Image) :
    getF c (setF c e .portNum (BitVec.ofNat 32 port)) .portNum = BitVec.ofNat 32 port :=
  getField_setField e (portNum_inRange hc) ((toNat_port hc hp).symm ▸ port_lt_two_pow_pnb hp)

end WellFormed

/-! ### The image FWD-learn writes -/

theorem learnedImage_eq (c : Cfg) (u : Learned) :
    learnedImage c u = setF c (setUcastType (setAddr (setScope 0 u.vid.isSome (u.vid.getD 0)) u.mac)
      (if u.touched then .touched else .untouched)) .portNum (BitVec.ofNat 32 u.port) := by
  obtain ⟨vid, mac, touched, port⟩ := u
  cases vid <;> rfl

/-- Below PORT_NUM the learned image, bit by bit. -/
theorem getLsbD_learnedImage_below (c : Cfg) (u : Learned) {b : Nat} (hb : b < 66) :
    (learnedImage c u).getLsbD b =
      if b < 48 then u.mac.getLsbD b
      else if b < 60 then u.vid.isSome && (u.vid.getD 0).getLsbD (b - 48)
      else if b = 60 then true
      else if b = 61 then u.vid.isSome
      else if b = 62 then true
      else decide (b = 63) && u.touched := by
  rw [learnedImage_eq, setF, getLsbD_setField_outside _ _ (by simp only [fieldStart]; omega),
    getLsbD_setUcastType_ages, getLsbD_setAddr, getLsbD_setScope]
  simp only [BitVec.ofNat_eq_ofNat, BitVec.getLsbD_zero]
  grind

/-- Above PORT_NUM the learned image is 0. -/
theorem getLsbD_learnedImage_above (c : Cfg) (u : Learned) {b : Nat} (hb : 66 + pnb c ≤ b) :
    (learnedImage c u).getLsbD b = false := by
  rw [learnedImage_eq, setF, getLsbD_setField_outside _ _ (by simp only [fieldStart, fieldWidth]; omega),
    getLsbD_setUcastType_ages, getLsbD_setAddr, getLsbD_setScope]
  simp only [BitVec.ofNat_eq_ofNat, BitVec.getLsbD_zero]
  grind

theorem ageable_learnedImage {c : Cfg} {u : Learned} (h : u.mac.getLsbD 40 = false) :
    ageable (learnedImage c u) = true := by
  rw [ageable_eq, getLsbD_learnedImage_below c u (by decide), getLsbD_learnedImage_below c u (by decide),
    getLsbD_learnedImage_below c u (by decide)]
  simpa using h

theorem entryType_learnedImage (c : Cfg) (u : Learned) :
    entryType (learnedImage c u) = if u.vid.isSome then .vlanAddr else .addr :=
  entryType_of_bits (getLsbD_learnedImage_below c u (by decide)) (getLsbD_learnedImage_below c u (by decide))

theorem getVid_learnedImage (c : Cfg) (u : Learned) : getVid (learnedImage c u) = u.vid.getD 0 := by
  refine getVid_of_bits fun i hi => ?_
  rw [getLsbD_learnedImage_below c u (by omega), if_neg (by omega), if_pos (by omega), Nat.add_sub_cancel_left]
  cases u.vid <;> simp

theorem getAddr_learnedImage (c : Cfg) (u : Learned) : getAddr (learnedImage c u) = u.mac :=
  getAddr_of_bits fun b hb => by rw [getLsbD_learnedImage_below c u (by omega), if_pos hb]

theorem ucastType_learnedImage (c : Cfg) (u : Learned) :
    ucastType (learnedImage c u) = if u.touched then .touched else .untouched := by
  rw [ucastType_eq, getLsbD_learnedImage_below c u (by decide), getLsbD_learnedImage_below c u (by decide)]
  rfl

theorem getF_portNum_learnedImage {c : Cfg} {u : Learned} (hc : cfgWf c = true) (hp : u.port < c.p) :
    getF c (learnedImage c u) .portNum = BitVec.ofNat 32 u.port := by
  rw [learnedImage_eq, getF_setF_portNum hc hp]

/-! ### What a step of the forwarding path can do -/

/-- An entry that the forwarding path may write (R345). -/
abbrev Learnable (e : Image) : Prop := isFree e = true ∨ ageable e = true

/-- A VLAN, multicast, PERSISTENT or OUI entry is none. -/
theorem not_learnable {e : Image} (h : isVlan e = true ∨
    (isAddr e = true ∧ (isMcast e = true ∨ e.getLsbD 62 = false))) : ¬ Learnable e := by
  simp only [Learnable, isVlan_eq, isAddr_eq, isMcast_eq, isFree_eq, ageable_eq] at h ⊢
  grind

/-- The new image of an entry: it ages, and its port is one of the engine's or the port it had. -/
def ForwardImage (c : Cfg) (old e : Image) : Prop :=
  ageable e = true ∧ ((getF c e .portNum).toNat < c.p ∨ getF c e .portNum = getF c old .portNum)

theorem forwardImage_learned {c : Cfg} {u : Learned} (hc : cfgWf c = true) (hu : learnedOk c u = true) (old : Image) :
    ForwardImage c old (learnedImage c u) := by
  simp only [learnedOk, Bool.and_eq_true, Bool.not_eq_true', decide_eq_true_eq] at hu
  obtain ⟨hmac, hp⟩ := hu
  refine ⟨ageable_learnedImage hmac, .inl ?_⟩
  rwa [getF_portNum_learnedImage hc hp, toNat_port hc hp]

theorem forwardImage_touched (c : Cfg) {old : Image} (h : ageable old = true) :
    ForwardImage c old (setUcastType old .touched) :=
  ⟨ageable_setUcastType_touched h, .inr (getF_portNum_setUcastType c old _)⟩

theorem getF_portNum_moved {c : Cfg} {p : Nat} (hc : cfgWf c = true) (hp : p < c.p) (old : Image) :
    getF c (setUcastType (setF c old .portNum (BitVec.ofNat 32 p)) .touched) .portNum = BitVec.ofNat 32 p := by
  rw [getF_portNum_setUcastType, getF_setF_portNum hc hp]

theorem forwardImage_moved {c : Cfg} {p : Nat} (hc : cfgWf c = true) (hp : p < c.p) {old : Image}
    (h : ageable old = true) :
    ForwardImage c old (setUcastType (setF c old .portNum (BitVec.ofNat 32 p)) .touched) := by
  refine ⟨ageable_setUcastType_touched (by rwa [ageable_setF_portNum]), .inl ?_⟩
  rwa [getF_portNum_moved hc hp, toNat_port hc hp]

/-- The inversion of a forwarding step: it is not enabled, or it writes one entry that it may write. -/
theorem agentStep_forward {s : State} {x : AgentStep} (hc : cfgWf s.cfg = true) (hr : x ≠ .tickRead)
    (hw : x ≠ .tickWrite) (hh : x ≠ .hwTick) :
    agentStep x s = s ∨ ∃ i e, fwdEnabled i s = true ∧ Learnable (Table.entry s.table i) ∧
      ForwardImage s.cfg (Table.entry s.table i) e ∧ agentStep x s = setEntry i e s := by
  cases x with
  | tickRead => exact absurd rfl hr
  | tickWrite => exact absurd rfl hw
  | hwTick => exact absurd rfl hh
  | fwdLearn i u =>
    simp only [agentStep, fwdLearn, Bool.and_eq_true, Bool.or_eq_true]
    split
    next h =>
      obtain ⟨⟨hen, hu⟩, hold⟩ := h
      exact .inr ⟨i, _, hen, hold, forwardImage_learned hc hu _, rfl⟩
    next => exact .inl rfl
  | fwdTouch i =>
    simp only [agentStep, fwdTouch, Bool.and_eq_true]
    split
    next h =>
      obtain ⟨⟨hen, hold⟩, -⟩ := h
      exact .inr ⟨i, _, hen, .inr hold, forwardImage_touched _ hold, rfl⟩
    next => exact .inl rfl
  | fwdMove i p =>
    simp only [agentStep, fwdMove, Bool.and_eq_true, decide_eq_true_eq]
    split
    next h =>
      obtain ⟨⟨⟨hen, hold⟩, -⟩, hp⟩ := h
      exact .inr ⟨i, _, hen, .inr hold, forwardImage_moved hc hp hold, rfl⟩
    next => exact .inl rfl

/-! ### The steps that are enabled -/

theorem fwdEnabled_iff {i : Nat} {s : State} :
    fwdEnabled i s = true ↔ s.eng.created = true ∧ s.regs.control.getLsbD 31 = true ∧ i < s.cfg.n := by
  simp [fwdEnabled, enableBit, and_assoc]

section Enabled

variable {s : State} {i : Nat} (hen : fwdEnabled i s = true)
include hen

theorem fwdLearn_of_enabled {u : Learned} (hmac : u.mac.getLsbD 40 = false) (hp : u.port < s.cfg.p)
    (hold : Learnable (Table.entry s.table i)) : fwdLearn i u s = setEntry i (learnedImage s.cfg u) s :=
  by
  have hu : learnedOk s.cfg u = true := by rw [learnedOk, hmac, decide_eq_true hp]; rfl
  exact if_pos (by simpa [hen, hu] using hold)

theorem fwdTouch_of_enabled (hage : ageable (Table.entry s.table i) = true)
    (hclass : ucastType (Table.entry s.table i) = .untouched) :
    fwdTouch i s = setEntry i (setUcastType (Table.entry s.table i) .touched) s :=
  if_pos (by simp [hen, hage, hclass])

theorem fwdMove_of_enabled {p : Nat} (hage : ageable (Table.entry s.table i) = true)
    (hsecure : (Table.entry s.table i).getLsbD 64 = false) (hp : p < s.cfg.p) :
    fwdMove i p s = setEntry i
      (setUcastType (setF s.cfg (Table.entry s.table i) .portNum (BitVec.ofNat 32 p)) .touched) s := by
  have hfield : getF s.cfg (Table.entry s.table i) .secure = 0 := by
    rw [getF, fieldStart, fieldWidth, getField_one, hsecure]
    rfl
  exact if_pos (by simp [hen, hage, hfield, hp])

end Enabled

/-! ### The obligation (R345) -/

/-- A write of one entry changes no entry but that one. -/
theorem index_of_entry_store_ne {t : Table} {i j : Nat} {e : Image}
    (h : Table.entry (Table.store t i e) j ≠ Table.entry t j) : j = i := by
  by_contra hne
  exact h (Table.entry_store_other t e hne)

/-- Settles O51: a step writes at most one entry, which it may write, and each enabled step writes the image of its
rule. -/
theorem forwardingPathLearnsTouchesAndMoves : Obligations.ForwardingPathLearnsTouchesAndMoves := by
  constructor
  · intro s x hc hr hw hh
    obtain h | ⟨i, e, hen, hold, ⟨hage, hport⟩, h⟩ := agentStep_forward hc hr hw hh
    · exact ⟨s.table, h, fun _ => rfl, fun _ _ => rfl, fun _ hj => absurd rfl hj, fun _ _ hj => absurd rfl hj⟩
    · obtain ⟨hcreated, henable, hi⟩ := fwdEnabled_iff.1 hen
      refine ⟨_, h, fun hoff => ?_, fun j hprot => ?_, fun j hj => ?_, fun j j' hj hj' => ?_⟩
      · rw [hcreated, henable] at hoff
        exact absurd hoff (by decide)
      · by_contra hj
        cases index_of_entry_store_ne hj
        exact not_learnable hprot hold
      · cases index_of_entry_store_ne hj
        rw [Table.entry_store_same]
        exact ⟨hi, hage, hport⟩
      · exact (index_of_entry_store_ne hj).trans (index_of_entry_store_ne hj').symm
  · intro s i hc hcreated henable hi old
    have hen : fwdEnabled i s = true := fwdEnabled_iff.2 ⟨hcreated, henable, hi⟩
    refine ⟨fun u hmac hp hold => ?_, fun hage hclass => ?_, fun p hage hsecure hp => ?_⟩
    · exact ⟨_, fwdLearn_of_enabled hen hmac hp hold, entryType_learnedImage _ u, getVid_learnedImage _ u,
        getAddr_learnedImage _ u, ucastType_learnedImage _ u, getLsbD_learnedImage_below _ u (by decide),
        getLsbD_learnedImage_below _ u (by decide), getF_portNum_learnedImage hc hp,
        fun _ hb => getLsbD_learnedImage_above _ u hb⟩
    · exact ⟨_, fwdTouch_of_enabled hen hage hclass, ucastType_setUcastType _ _,
        keptOutside_setField (d := (62, 2)) (keptOutside_refl _ _) (by simp) _⟩
    · have hkept := keptOutside_setField (d := (66, pnb s.cfg))
        (keptOutside_refl [(62, 2), (66, pnb s.cfg)] old) (by simp) (BitVec.ofNat 32 p)
      exact ⟨_, fwdMove_of_enabled hen hage hsecure hp, ucastType_setUcastType _ _, getF_portNum_moved hc hp old,
        keptOutside_setField (d := (62, 2)) hkept (by simp) _⟩

end Sys2Proof.Machine
end

section
/-! SUPPORT. Under `Isolated` with no tick pending no other agent changes anything (R363), so the micro-steps of a
command and the helpers of the command bodies do under every schedule what they do alone (R66). -/

namespace Sys2Proof.Machine

/-! ### Schedules -/

/-- The machine with no agent steps to come inside the command (log 4). -/
def unscheduled (s : State) : State := { s with sched := [] }

@[simp] theorem unscheduled_cfg (s : State) : (unscheduled s).cfg = s.cfg := rfl
@[simp] theorem unscheduled_tblBuf (s : State) : (unscheduled s).tblBuf = s.tblBuf := rfl
@[simp] theorem unscheduled_table (s : State) : (unscheduled s).table = s.table := rfl

/-- No other agent has a step (R363). -/
def Calm (s : State) : Prop := Isolated s ∧ Quiet s

/-- A change of a calm machine that is the same under every schedule, and leaves the machine calm. -/
def StepIgnoresSchedule (f : State → State) : Prop :=
  ∀ s, Calm s → f (unscheduled s) = unscheduled (f s) ∧ Calm (f s)

/-- A helper of a command body that, of a calm machine, answers and does the same under every schedule, and leaves the
machine calm. -/
def IgnoresSchedule {α : Type} (f : State → α × State) : Prop :=
  ∀ s, Calm s → ∃ a t, f s = (a, t) ∧ f (unscheduled s) = (a, unscheduled t) ∧ Calm t

section Compose

variable {α : Type} {f : State → α × State} {g h : State → State}

theorem StepIgnoresSchedule.comp (hh : StepIgnoresSchedule h) (hg : StepIgnoresSchedule g) :
    StepIgnoresSchedule (fun s => h (g s)) := by
  intro s hs
  obtain ⟨hsame, hcalm⟩ := hg s hs
  obtain ⟨hsame', hcalm'⟩ := hh _ hcalm
  exact ⟨(congrArg h hsame).trans hsame', hcalm'⟩

theorem IgnoresSchedule.comp (hf : IgnoresSchedule f) (hg : StepIgnoresSchedule g) :
    IgnoresSchedule (fun s => f (g s)) := by
  intro s hs
  obtain ⟨hsame, hcalm⟩ := hg s hs
  dsimp only
  rw [hsame]
  exact hf _ hcalm

end Compose

/-! ### Micro-steps (R66) -/

/-- Before a micro-step of a calm machine only the schedule moves on. -/
theorem interleave_of_calm {s : State} (hs : Calm s) : ∃ q, interleave s = { s with sched := q } := by
  unfold interleave
  split
  · exact ⟨s.sched, rfl⟩
  next now later _ =>
    have hcalm : Calm { s with sched := later } := hs
    exact ⟨later, agentSteps_of_isolated now hcalm.1 hcalm.2⟩

theorem interleave_ignoresSchedule : StepIgnoresSchedule interleave := by
  intro s hs
  obtain ⟨q, hq⟩ := interleave_of_calm hs
  rw [hq]
  exact ⟨rfl, hs⟩

theorem readReg_unscheduled (r : Reg) (s : State) :
    readReg r (unscheduled s) = ((readReg r s).1, unscheduled (readReg r s).2) := by
  have hnamed : namedValue (unscheduled s) r = namedValue s r := by cases r <;> rfl
  unfold readReg
  rw [hnamed, unscheduled_cfg]
  dsimp only
  split <;> rfl

theorem readReg_ignoresSchedule (r : Reg) : IgnoresSchedule (readReg r) := by
  intro s hs
  refine ⟨(readReg r s).1, (readReg r s).2, rfl, readReg_unscheduled r s, ?_⟩
  obtain ⟨k, hk⟩ := readReg_frame r s
  rw [hk]
  exact hs

theorem memRead_ignoresSchedule (r : Reg) : IgnoresSchedule (memRead r) :=
  (readReg_ignoresSchedule r).comp interleave_ignoresSchedule

theorem writeMux_ignoresSchedule (k : Nat) (v : Word) : StepIgnoresSchedule (memWrite (.maskMux k) v) :=
  have hwrite : StepIgnoresSchedule (writeReg (.maskMux k) v) := fun _ hs => ⟨rfl, hs⟩
  hwrite.comp interleave_ignoresSchedule

theorem tblRead_ignoresSchedule (i : Nat) : IgnoresSchedule (tblRead i) :=
  have hselect : IgnoresSchedule (selectEntry i) := fun _ hs => ⟨_, _, rfl, rfl, hs⟩
  hselect.comp interleave_ignoresSchedule

theorem tblWrite_ignoresSchedule (i : Nat) (e : Image) : StepIgnoresSchedule (tblWrite i e) :=
  have hcommit : StepIgnoresSchedule (commitEntry i e) := fun _ hs => ⟨rfl, hs⟩
  hcommit.comp interleave_ignoresSchedule

theorem drawBool_ignoresSchedule : IgnoresSchedule drawBool := fun _ hs => ⟨_, _, rfl, rfl, hs⟩

theorem maybeRewrite_ignoresSchedule (i : Nat) (e : Image) : StepIgnoresSchedule (maybeRewrite i e) := by
  intro s hs
  obtain ⟨b, u, hb, hb', hu⟩ := drawBool_ignoresSchedule s hs
  obtain ⟨hsame, hcalm⟩ := interleave_ignoresSchedule u hu
  simp only [maybeRewrite, hb, hb', hsame, unscheduled_table, unscheduled_tblBuf]
  split
  · exact ⟨rfl, hcalm⟩
  · split
    · exact ⟨rfl, hcalm⟩
    · exact ⟨rfl, hcalm⟩

/-! ### Loops and scans -/

theorem forEntries_ignoresSchedule {body : Nat → State → State} (hbody : ∀ i, StepIgnoresSchedule (body i))
    (n i : Nat) : StepIgnoresSchedule (forEntries body n i) := by
  induction n generalizing i with
  | zero => exact fun _ hs => ⟨rfl, hs⟩
  | succ n ih => exact (ih (i + 1)).comp (hbody i)

theorem scan_ignoresSchedule (pred : Image → Bool) : IgnoresSchedule (scan pred) := by
  have loop (n i : Nat) : IgnoresSchedule (scanFrom pred n i) := by
    induction n generalizing i with
    | zero => exact fun _ hs => ⟨_, _, rfl, rfl, hs⟩
    | succ n ih =>
      intro s hs
      obtain ⟨e, u, he, he', hu⟩ := tblRead_ignoresSchedule i s hs
      simp only [scanFrom, he, he']
      split
      · exact ⟨_, _, rfl, rfl, hu⟩
      · exact ih (i + 1) u hu
  exact fun s => loop s.cfg.n 0 s

theorem alloc_ignoresSchedule (found : Option Nat) : IgnoresSchedule (alloc found) := by
  intro s hs
  cases found with
  | some i => exact ⟨_, _, rfl, rfl, hs⟩
  | none =>
    obtain ⟨free, u, hf, hf', hu⟩ := scan_ignoresSchedule isFree s hs
    simp only [alloc, matchFree, findAgeable, hf, hf']
    cases free with
    | some x => exact ⟨_, _, rfl, rfl, hu⟩
    | none =>
      obtain ⟨old, v, ha, ha', hv⟩ := scan_ignoresSchedule ageable u hu
      simp only [ha, ha']
      cases old with
      | some x => exact ⟨_, _, rfl, rfl, hv⟩
      | none => exact ⟨_, _, rfl, rfl, hv⟩

theorem existingImage_ignoresSchedule (found : Option Nat) : IgnoresSchedule (existingImage found) := by
  cases found with
  | none => exact fun _ hs => ⟨_, _, rfl, rfl, hs⟩
  | some i => exact tblRead_ignoresSchedule i

theorem dumpFrom_ignoresSchedule (n i : Nat) : IgnoresSchedule (dumpFrom n i) := by
  induction n generalizing i with
  | zero => exact fun _ hs => ⟨_, _, rfl, rfl, hs⟩
  | succ n ih =>
    intro s hs
    obtain ⟨e, u, he, he', hu⟩ := tblRead_ignoresSchedule i s hs
    obtain ⟨ws, v, hw, hw', hv⟩ := ih (i + 1) u hu
    simp only [dumpFrom, he, he', hw, hw']
    exact ⟨_, _, rfl, rfl, hv⟩

theorem restoreFrom_ignoresSchedule (ws : List Word) (i : Nat) : StepIgnoresSchedule (restoreFrom ws i) := by
  intro s hs
  induction ws, i, s using restoreFrom.induct with
  | case1 w2 w1 w0 ws i s ih =>
    obtain ⟨hsame, hcalm⟩ := tblWrite_ignoresSchedule i (w2 ++ w1 ++ w0) s hs
    simp only [restoreFrom, hsame]
    exact ih hcalm
  | case2 => exact ⟨rfl, hs⟩
  | case3 => exact ⟨rfl, hs⟩
  | case4 => exact ⟨rfl, hs⟩

theorem flushEntry_ignoresSchedule (filter : Option Vid) (mask : Word) (i : Nat) :
    StepIgnoresSchedule (flushEntry filter mask i) := by
  intro s hs
  obtain ⟨e, u, he, he', hu⟩ := tblRead_ignoresSchedule i s hs
  simp only [flushEntry, he, he', unscheduled_cfg]
  split
  · exact ⟨rfl, hu⟩
  · split
    · exact ⟨rfl, hu⟩
    · split
      · exact maybeRewrite_ignoresSchedule i e u hu
      · split
        · exact tblWrite_ignoresSchedule i _ u hu
        · split
          · exact maybeRewrite_ignoresSchedule i e u hu
          · exact tblWrite_ignoresSchedule i _ u hu

/-! ### VLAN fields and masks (R158, R231 to R235) -/

theorem vlanGet_ignoresSchedule (e : Image) (id : VlanField) : IgnoresSchedule (vlanGet e id) := by
  intro s hs
  simp only [vlanGet, unscheduled_cfg]
  split
  · exact ⟨_, _, rfl, rfl, hs⟩
  · exact ⟨_, _, rfl, rfl, hs⟩

theorem vlanSet_ignoresSchedule (e : Image) (id : VlanField) (v : Word) : IgnoresSchedule (vlanSet e id v) := by
  intro s hs
  simp only [vlanSet, unscheduled_cfg]
  split
  · exact ⟨_, _, rfl, rfl, hs⟩
  · exact ⟨_, _, rfl, rfl, hs⟩

theorem setUntag_ignoresSchedule (e : Image) (vid : Vid) (u : Word) : IgnoresSchedule (setUntag e vid u) := by
  intro s hs
  obtain ⟨e', t, he, he', ht⟩ := vlanSet_ignoresSchedule e .forceUntagMsk u s hs
  simp only [setUntag, he, he']
  exact ⟨_, _, rfl, rfl, ht⟩

theorem readMux_ignoresSchedule (k : Nat) : IgnoresSchedule (readMux k) := by
  intro s hs
  obtain ⟨v, t, hv, hv', ht⟩ := memRead_ignoresSchedule (.maskMux k) s hs
  simp only [readMux, hv, hv']
  exact ⟨_, _, rfl, rfl, ht⟩

theorem getFlood_ignoresSchedule (e : Image) : IgnoresSchedule (getFlood e) := by
  intro s hs
  cases hind : indirect s.cfg with
  | true =>
    obtain ⟨k, t, hk, hk', ht⟩ := vlanGet_ignoresSchedule e .regMcastIdx s hs
    obtain ⟨reg, u, hr, hr', hu⟩ := readMux_ignoresSchedule k.toNat t ht
    obtain ⟨j, v, hj, hj', hv⟩ := vlanGet_ignoresSchedule e .unregMcastIdx u hu
    obtain ⟨unreg, w, hn, hn', hw⟩ := readMux_ignoresSchedule j.toNat v hv
    simp only [getFlood, unscheduled_cfg, hind, if_true, hk, hk', hr, hr', hj, hj', hn, hn']
    exact ⟨_, _, rfl, rfl, hw⟩
  | false =>
    obtain ⟨reg, t, hr, hr', ht⟩ := vlanGet_ignoresSchedule e .regMcastMsk s hs
    obtain ⟨unreg, u, hn, hn', hu⟩ := vlanGet_ignoresSchedule e .unregMcastMsk t ht
    simp only [getFlood, unscheduled_cfg, hind, Bool.false_eq_true, if_false, hr, hr', hn, hn']
    exact ⟨_, _, rfl, rfl, hu⟩

theorem setFlood_ignoresSchedule (e : Image) (reg unreg : Word) : IgnoresSchedule (setFlood e reg unreg) := by
  intro s hs
  cases hind : indirect s.cfg with
  | true =>
    obtain ⟨k, t, hk, hk', ht⟩ := vlanGet_ignoresSchedule e .regMcastIdx s hs
    obtain ⟨hw, hu⟩ := writeMux_ignoresSchedule k.toNat reg t ht
    obtain ⟨j, v, hj, hj', hv⟩ := vlanGet_ignoresSchedule e .unregMcastIdx _ hu
    obtain ⟨hx, hx'⟩ := writeMux_ignoresSchedule j.toNat unreg v hv
    simp only [setFlood, unscheduled_cfg, hind, if_true, hk, hk', hw, hj, hj', hx]
    exact ⟨_, _, rfl, rfl, hx'⟩
  | false =>
    obtain ⟨e', t, he, he', ht⟩ := vlanSet_ignoresSchedule e .regMcastMsk reg s hs
    simp only [setFlood, unscheduled_cfg, hind, Bool.false_eq_true, if_false, he, he']
    exact vlanSet_ignoresSchedule e' .unregMcastMsk unreg t ht

theorem freeVlan_ignoresSchedule (e : Image) (vid : Vid) : IgnoresSchedule (freeVlan e vid) := by
  intro s hs
  obtain ⟨e', t, he, he', ht⟩ := setUntag_ignoresSchedule e vid 0 s hs
  simp only [freeVlan, he, he']
  exact ⟨_, _, rfl, rfl, ht⟩

theorem delModify_ignoresSchedule (e : Image) (vid : Vid) (pm : Word) : IgnoresSchedule (delModify e vid pm) := by
  intro s hs
  obtain ⟨old, t, ho, ho', ht⟩ := vlanGet_ignoresSchedule e .memberList s hs
  simp only [delModify, ho, ho']
  split
  · exact freeVlan_ignoresSchedule e vid t ht
  · obtain ⟨untag, u, hn, hn', hu⟩ := vlanGet_ignoresSchedule e .forceUntagMsk t ht
    obtain ⟨⟨reg, unreg⟩, v, hf, hf', hv⟩ := getFlood_ignoresSchedule e u hu
    obtain ⟨e1, w, he, he', hw⟩ := setUntag_ignoresSchedule e vid (untag &&& (old &&& ~~~pm)) v hv
    obtain ⟨e2, x, hg, hg', hx⟩ :=
      setFlood_ignoresSchedule e1 (reg &&& (old &&& ~~~pm)) (unreg &&& (old &&& ~~~pm)) w hw
    simp only [hn, hn', hf, hf', he, he', hg, hg']
    exact vlanSet_ignoresSchedule e2 .memberList _ x hx

/-- R234: the index of the unregistered flood mask is 1 where the masks lie in the bank. -/
theorem nuIndex_ignoresSchedule (e : Image) :
    IgnoresSchedule (fun s => if indirect s.cfg then vlanSet e .unregMcastIdx 1 s else (e, s)) := by
  intro s hs
  cases hind : indirect s.cfg with
  | true =>
    simp only [unscheduled_cfg, hind, if_true]
    exact vlanSet_ignoresSchedule e .unregMcastIdx 1 s hs
  | false =>
    simp only [unscheduled_cfg, hind, Bool.false_eq_true, if_false]
    exact ⟨_, _, rfl, rfl, hs⟩

theorem buildVlan_ignoresSchedule (e : Image) (vid : Vid) (m : VlanMasks) : IgnoresSchedule (buildVlan e vid m) := by
  intro s hs
  obtain ⟨e1, t, he, he', ht⟩ := setUntag_ignoresSchedule (setVid (setType e .vlan) vid) vid m.untag s hs
  obtain ⟨e2, u, hn, hn', hu⟩ := nuIndex_ignoresSchedule e1 t ht
  obtain ⟨e3, v, hf, hf', hv⟩ := setFlood_ignoresSchedule e2 m.reg m.unreg u hu
  dsimp only at hn hn'
  simp only [buildVlan, he, he', hn, hn', hf, hf']
  exact vlanSet_ignoresSchedule e3 .memberList m.mem v hv

theorem existingMasks_ignoresSchedule (found : Option Nat) : IgnoresSchedule (existingMasks found) := by
  cases found with
  | none => exact fun _ hs => ⟨_, _, rfl, rfl, hs⟩
  | some i =>
    intro s hs
    obtain ⟨e, t, he, he', ht⟩ := tblRead_ignoresSchedule i s hs
    obtain ⟨mem, u, hm, hm', hu⟩ := vlanGet_ignoresSchedule e .memberList t ht
    obtain ⟨untag, v, hn, hn', hv⟩ := vlanGet_ignoresSchedule e .forceUntagMsk u hu
    obtain ⟨⟨reg, unreg⟩, w, hf, hf', hw⟩ := getFlood_ignoresSchedule e v hv
    simp only [existingMasks, he, he', hm, hm', hn, hn', hf, hf']
    exact ⟨_, _, rfl, rfl, hw⟩

theorem delVlanImage_ignoresSchedule (force : Bool) (e : Image) (vid : Vid) (mask : Word) :
    IgnoresSchedule (delVlanImage force e vid mask) := by
  intro s hs
  obtain ⟨mem, t, hm, hm', ht⟩ := vlanGet_ignoresSchedule e .memberList s hs
  simp only [delVlanImage, hm, hm']
  split
  · exact freeVlan_ignoresSchedule e vid t ht
  · exact delModify_ignoresSchedule e vid _ t ht

theorem toggleUnreg_ignoresSchedule (en : Bool) (m : Word) (i : Nat) (e : Image) :
    StepIgnoresSchedule (toggleUnreg en m i e) := by
  intro s hs
  cases hind : indirect s.cfg with
  | true =>
    obtain ⟨k, t, hk, hk', ht⟩ := vlanGet_ignoresSchedule e .unregMcastIdx s hs
    obtain ⟨old, u, ho, ho', hu⟩ := readMux_ignoresSchedule k.toNat t ht
    obtain ⟨hw, hv⟩ := writeMux_ignoresSchedule k.toNat (toggleMask en old m) u hu
    simp only [toggleUnreg, unscheduled_cfg, hind, if_true, hk, hk', ho, ho', hw]
    exact maybeRewrite_ignoresSchedule i e _ hv
  | false =>
    obtain ⟨old, t, ho, ho', ht⟩ := vlanGet_ignoresSchedule e .unregMcastMsk s hs
    obtain ⟨e', u, he, he', hu⟩ := vlanSet_ignoresSchedule e .unregMcastMsk (toggleMask en old m) t ht
    simp only [toggleUnreg, unscheduled_cfg, hind, Bool.false_eq_true, if_false, ho, ho', he, he']
    exact tblWrite_ignoresSchedule i e' u hu

theorem unregEntry_ignoresSchedule (en : Bool) (mask : Word) (i : Nat) :
    StepIgnoresSchedule (unregEntry en mask i) := by
  intro s hs
  obtain ⟨e, t, he, he', ht⟩ := tblRead_ignoresSchedule i s hs
  simp only [unregEntry, he, he']
  split
  · exact toggleUnreg_ignoresSchedule en mask i e t ht
  · exact ⟨rfl, ht⟩

theorem allmultiEntry_ignoresSchedule (en any : Bool) (port : BitVec 5) (i : Nat) :
    StepIgnoresSchedule (allmultiEntry en any port i) := by
  intro s hs
  obtain ⟨e, t, he, he', ht⟩ := tblRead_ignoresSchedule i s hs
  simp only [allmultiEntry, he, he']
  split
  · split
    · exact toggleUnreg_ignoresSchedule en hostBit i e t ht
    · obtain ⟨mem, u, hm, hm', hu⟩ := vlanGet_ignoresSchedule e .memberList t ht
      simp only [hm, hm']
      split
      · exact toggleUnreg_ignoresSchedule en hostBit i e u hu
      · exact ⟨rfl, hu⟩
  · exact ⟨rfl, ht⟩

/-! ### Register writes (R121 to R125, R304) -/

theorem agingPass_unscheduled (s : State) : agingPass (unscheduled s) = unscheduled (agingPass s) := by
  have loop (n i : Nat) (u : State) : agingPassFrom n i (unscheduled u) = unscheduled (agingPassFrom n i u) := by
    induction n generalizing i u with
    | zero => rfl
    | succ n ih => exact ih (i + 1) { u with
        table := Table.store u.table i (ageEntry u.cfg.agingPass (Table.entry u.table i) (Config.draw u.drawCount))
        drawCount := u.drawCount + 1 }
  exact loop s.cfg.n 0 s

theorem writeControl_unscheduled (v : Word) (s : State) :
    writeControl v (unscheduled s) = unscheduled (writeControl v s) := by
  cases hage : v.getLsbD ageoutBit with
  | false =>
    rw [writeControl_of_no_ageout _ hage, writeControl_of_no_ageout _ hage]
    rfl
  | true =>
    rw [writeControl_of_ageout _ hage, writeControl_of_ageout _ hage, ← agingPass_unscheduled]
    rfl

/-- No register write reads the schedule or moves it on. -/
theorem writeReg_unscheduled (r : Reg) (v : Word) (s : State) :
    writeReg r v (unscheduled s) = unscheduled (writeReg r v s) := by
  cases r with
  | control => exact writeControl_unscheduled v s
  | tableControl =>
    simp only [writeReg, writeTableControl]
    split
    · rfl
    · rfl
  | _ => rfl

end Sys2Proof.Machine
end

section
/-! SUPPORT. The commands under `Isolated` with no tick pending (R363, R370, R375): all but START, STOP and CTRL_SET
answer under every schedule what they answer alone. -/

namespace Sys2Proof.Machine

/-! ### The ends of a command body -/

/-- The second outcome is the first without the schedule. -/
def SameAnswer (o o' : Host.Outcome State Fault Refusal) : Prop := ∃ t, o = .next t ∧ o' = .next (unscheduled t)

theorem sameAnswer_complete (c : Status) (s : State) : SameAnswer (complete c s) (complete c (unscheduled s)) :=
  ⟨_, rfl, rfl⟩

theorem sameAnswer_fault (r : FaultReason) (s : State) :
    SameAnswer (faultOutcome r s) (faultOutcome r (unscheduled s)) := ⟨_, rfl, rfl⟩

theorem sameAnswer_refuse (r : RefusalReason) (s : State) :
    SameAnswer (refuseOutcome r s) (refuseOutcome r (unscheduled s)) := ⟨_, rfl, rfl⟩

theorem sameAnswer_withArg {α : Type} {s : State} {body body' : α → Host.Outcome State Fault Refusal}
    (a : Option α) (h : ∀ v, SameAnswer (body v) (body' v)) :
    SameAnswer (withArg a s body) (withArg a (unscheduled s) body') := by
  cases a with
  | none => exact sameAnswer_fault .undefArg s
  | some v => exact h v

theorem sameAnswer_whenCreated {s : State} {body body' : Host.Outcome State Fault Refusal} (hlive : Live s)
    (h : SameAnswer body body') : SameAnswer (whenCreated s body) (whenCreated (unscheduled s) body') := by
  rwa [whenCreated_live s _ hlive, whenCreated_live (unscheduled s) _ hlive]

theorem sameAnswer_reportMatch (found : Option (Nat × Image)) (s : State) :
    SameAnswer (reportMatch found s) (reportMatch found (unscheduled s)) := by
  cases found with
  | none => exact ⟨_, rfl, rfl⟩
  | some x => exact ⟨_, rfl, rfl⟩

theorem sameAnswer_reportIndex (found : Option (Nat × Image)) (s : State) :
    SameAnswer (reportIndex found s) (reportIndex found (unscheduled s)) := by
  cases found with
  | none => exact ⟨_, rfl, rfl⟩
  | some x => exact ⟨_, rfl, rfl⟩

section Commands

variable {s : State} (hs : Calm s)
include hs

theorem sameAnswer_completeStep (c : Status) {f : State → State} (hf : StepIgnoresSchedule f) :
    SameAnswer (complete c (f s)) (complete c (f (unscheduled s))) := by
  rw [(hf s hs).1]
  exact sameAnswer_complete c (f s)

theorem sameAnswer_writeEntry (i : Nat) (e : Image) :
    SameAnswer (complete .ok (setIndex i (tblWrite i e s)))
      (complete .ok (setIndex i (tblWrite i e (unscheduled s)))) := by
  rw [(tblWrite_ignoresSchedule i e s hs).1]
  exact sameAnswer_complete .ok (setIndex i (tblWrite i e s))

theorem sameAnswer_writeAlloc (slot : Option Nat) (e : Image) :
    SameAnswer (writeAlloc slot e s) (writeAlloc slot e (unscheduled s)) := by
  cases slot with
  | none => exact sameAnswer_complete _ s
  | some i => exact sameAnswer_writeEntry hs i e

theorem sameAnswer_allocWrite (found : Option Nat) (e : Image) :
    SameAnswer (writeAlloc (alloc found s).1 e (alloc found s).2)
      (writeAlloc (alloc found (unscheduled s)).1 e (alloc found (unscheduled s)).2) := by
  obtain ⟨slot, t, ha, ha', ht⟩ := alloc_ignoresSchedule found s hs
  rw [ha, ha']
  exact sameAnswer_writeAlloc ht slot e

/-- A command on the entry that a scan finds: what it does with the entry decides. -/
theorem sameAnswer_scan (pred : Image → Bool) {onFound : Nat → State → Host.Outcome State Fault Refusal}
    (hfound : ∀ i t, Calm t → SameAnswer (onFound i t) (onFound i (unscheduled t))) :
    SameAnswer
      (match scan pred s with
        | (none, t) => complete .notFound t
        | (some (i, _), t) => onFound i t)
      (match scan pred (unscheduled s) with
        | (none, t) => complete .notFound t
        | (some (i, _), t) => onFound i t) := by
  obtain ⟨found, t, hscan, hscan', ht⟩ := scan_ignoresSchedule pred s hs
  rw [hscan, hscan']
  cases found with
  | none => exact sameAnswer_complete _ t
  | some x => exact hfound x.1 t ht

theorem sameAnswer_scanMatch (pred : Image → Bool) :
    SameAnswer (reportMatch (scan pred s).1 (scan pred s).2)
      (reportMatch (scan pred (unscheduled s)).1 (scan pred (unscheduled s)).2) := by
  obtain ⟨found, t, hf, hf', -⟩ := scan_ignoresSchedule pred s hs
  rw [hf, hf']
  exact sameAnswer_reportMatch found t

theorem sameAnswer_scanIndex (pred : Image → Bool) :
    SameAnswer (reportIndex (scan pred s).1 (scan pred s).2)
      (reportIndex (scan pred (unscheduled s)).1 (scan pred (unscheduled s)).2) := by
  obtain ⟨found, t, hf, hf', -⟩ := scan_ignoresSchedule pred s hs
  rw [hf, hf']
  exact sameAnswer_reportIndex found t

theorem addVlanWith_sameAnswer (vid : Vid) (m : VlanMasks) :
    SameAnswer (addVlanWith vid m s) (addVlanWith vid m (unscheduled s)) := by
  obtain ⟨found, t, hf, hf', ht⟩ := scan_ignoresSchedule (vlanMatches vid) s hs
  obtain ⟨e, u, he, he', hu⟩ := existingImage_ignoresSchedule (indexOf found) t ht
  obtain ⟨slot, v, ha, ha', hv⟩ := alloc_ignoresSchedule (indexOf found) u hu
  simp only [addVlanWith, matchVlan, hf, hf', he, he', ha, ha']
  cases slot with
  | none => exact sameAnswer_complete _ v
  | some i =>
    obtain ⟨e', w, hb, hb', hw⟩ := buildVlan_ignoresSchedule e vid m v hv
    simp only [hb, hb']
    exact sameAnswer_writeEntry hw i e'

/-- The read and the write of a control, of which the write is the last micro-step. -/
theorem ctrlSetBody_unscheduled (port cid : BitVec 5) (val : Word) :
    ctrlSetBody port cid val (unscheduled s) = (ctrlSetBody port cid val s).map fun x => (x.1, unscheduled x.2) := by
  have hplace : ctrlPlace port cid (unscheduled s) = ctrlPlace port cid s := rfl
  simp only [ctrlSetBody, hplace, unscheduled_cfg]
  split
  · rfl
  · split
    · rfl
    · split
      · rfl
      next r _ =>
        obtain ⟨v, t, hr, hr', ht⟩ := memRead_ignoresSchedule r s hs
        simp only [hr, hr', memWrite, (interleave_ignoresSchedule t ht).1, writeReg_unscheduled, unscheduled_cfg]
        rfl

theorem rateLimit_sameAnswer (port cid : BitVec 5) (pps : Word) :
    SameAnswer (rateLimit port cid pps s) (rateLimit port cid pps (unscheduled s)) := by
  simp only [rateLimit, ctrlSetBody_unscheduled hs]
  split
  · exact sameAnswer_complete _ s
  · rcases ctrlSetBody port cid (BitVec.ofNat 32 (pps.toNat / rlMinPps)) s with r | ⟨st, t⟩
    · exact sameAnswer_refuse r s
    · cases st with
      | ok => exact ⟨_, rfl, rfl⟩
      | _ => exact sameAnswer_complete _ t

end Commands

/-! ### The commands -/

section Exec

variable {s : State} (hs : Calm s) (hlive : Live s)
include hs hlive

theorem execTblRead_sameAnswer : SameAnswer (execTblRead s) (execTblRead (unscheduled s)) :=
  sameAnswer_whenCreated hlive <| sameAnswer_withArg s.a.value fun idx => by
    have hfault : indexFault idx.toNat (unscheduled s) = indexFault idx.toNat s := rfl
    obtain ⟨e, t, he, he', -⟩ := tblRead_ignoresSchedule idx.toNat s hs
    rw [hfault, he, he']
    split
    · exact sameAnswer_fault _ s
    · exact ⟨_, rfl, rfl⟩

theorem execTblWrite_sameAnswer : SameAnswer (execTblWrite s) (execTblWrite (unscheduled s)) :=
  sameAnswer_whenCreated hlive <| sameAnswer_withArg s.a.value fun idx => sameAnswer_withArg s.a.img fun e => by
    have hfault : indexFault idx.toNat (unscheduled s) = indexFault idx.toNat s := rfl
    rw [hfault]
    split
    · exact sameAnswer_fault _ s
    · exact sameAnswer_writeEntry hs idx.toNat e

theorem execDump_sameAnswer : SameAnswer (execDump s) (execDump (unscheduled s)) :=
  sameAnswer_whenCreated hlive <| by
    obtain ⟨ws, t, hw, hw', -⟩ := dumpFrom_ignoresSchedule s.cfg.n 0 s hs
    rw [unscheduled_cfg, hw, hw']
    exact ⟨_, rfl, rfl⟩

theorem execRestore_sameAnswer : SameAnswer (execRestore s) (execRestore (unscheduled s)) :=
  sameAnswer_whenCreated hlive <| sameAnswer_withArg s.a.buf fun ws => by
    rw [unscheduled_cfg]
    split
    · exact sameAnswer_completeStep hs _ (restoreFrom_ignoresSchedule ws 0)
    · exact sameAnswer_complete _ s

theorem execMatchUcast_sameAnswer : SameAnswer (execMatchUcast s) (execMatchUcast (unscheduled s)) :=
  sameAnswer_whenCreated hlive <| sameAnswer_withArg s.a.mac fun addr => sameAnswer_withArg s.a.vid fun vid =>
    sameAnswer_scanMatch hs (addrMatches addr vid)

theorem execMatchVlan_sameAnswer : SameAnswer (execMatchVlan s) (execMatchVlan (unscheduled s)) :=
  sameAnswer_whenCreated hlive <| sameAnswer_withArg s.a.vid fun vid => sameAnswer_scanMatch hs (vlanMatches vid)

theorem execMatchFree_sameAnswer : SameAnswer (execMatchFree s) (execMatchFree (unscheduled s)) :=
  sameAnswer_whenCreated hlive (sameAnswer_scanIndex hs isFree)

theorem execFindAgeable_sameAnswer : SameAnswer (execFindAgeable s) (execFindAgeable (unscheduled s)) :=
  sameAnswer_whenCreated hlive (sameAnswer_scanIndex hs ageable)

theorem execAddUcast_sameAnswer (vlan secure blocked : Bool) (port : BitVec 5) :
    SameAnswer (execAddUcast vlan secure blocked port s) (execAddUcast vlan secure blocked port (unscheduled s)) :=
  sameAnswer_whenCreated hlive <| sameAnswer_withArg s.a.mac fun addr =>
  sameAnswer_withArg (scopedVid vlan s) fun vid => by
    obtain ⟨found, t, hf, hf', ht⟩ := scan_ignoresSchedule (addrMatches addr vid) s hs
    rw [unscheduled_cfg]
    split
    · simp only [matchAddr, hf, hf']
      exact sameAnswer_allocWrite ht _ _
    · exact sameAnswer_complete _ s

theorem execDelUcast_sameAnswer (vlan : Bool) :
    SameAnswer (execDelUcast vlan s) (execDelUcast vlan (unscheduled s)) :=
  sameAnswer_whenCreated hlive <| sameAnswer_withArg s.a.mac fun _ => sameAnswer_withArg (scopedVid vlan s) fun _ =>
    sameAnswer_scan hs _ fun i _ ht => sameAnswer_writeEntry ht i 0

theorem execAddMcast_sameAnswer (vlan super : Bool) (mstate : BitVec 2) :
    SameAnswer (execAddMcast vlan super mstate s) (execAddMcast vlan super mstate (unscheduled s)) :=
  sameAnswer_whenCreated hlive <| sameAnswer_withArg s.a.mac fun addr => sameAnswer_withArg s.a.mask0 fun mask0 =>
  sameAnswer_withArg (scopedVid vlan s) fun vid => by
    obtain ⟨found, t, hf, hf', ht⟩ := scan_ignoresSchedule (addrMatches addr vid) s hs
    obtain ⟨old, u, ho, ho', hu⟩ := existingImage_ignoresSchedule (indexOf found) t ht
    simp only [matchAddr, hf, hf', ho, ho', unscheduled_cfg]
    exact sameAnswer_allocWrite hu _ _

theorem execDelMcast_sameAnswer (vlan : Bool) :
    SameAnswer (execDelMcast vlan s) (execDelMcast vlan (unscheduled s)) :=
  sameAnswer_whenCreated hlive <| sameAnswer_withArg s.a.mac fun _ => sameAnswer_withArg s.a.mask0 fun _ =>
  sameAnswer_withArg (scopedVid vlan s) fun _ =>
    sameAnswer_scan hs _ fun i t ht => by
      obtain ⟨e, u, he, he', hu⟩ := tblRead_ignoresSchedule i t ht
      rw [he, he']
      exact sameAnswer_writeEntry hu i _

theorem execFlushMcast_sameAnswer (any : Bool) :
    SameAnswer (execFlushMcast any s) (execFlushMcast any (unscheduled s)) :=
  sameAnswer_whenCreated hlive <| sameAnswer_withArg s.a.mask0 fun _ =>
  sameAnswer_withArg (flushFilter any s) fun filter =>
    sameAnswer_completeStep hs _ (forEntries_ignoresSchedule (flushEntry_ignoresSchedule filter _) s.cfg.n 0)

theorem execAddVlan_sameAnswer : SameAnswer (execAddVlan s) (execAddVlan (unscheduled s)) :=
  sameAnswer_whenCreated hlive <| sameAnswer_withArg s.a.vid fun vid => sameAnswer_withArg s.a.mask0 fun _ =>
  sameAnswer_withArg s.a.mask1 fun _ => sameAnswer_withArg s.a.mask2 fun _ => sameAnswer_withArg s.a.mask3 fun _ =>
    addVlanWith_sameAnswer hs vid _

theorem execVlanAddModify_sameAnswer : SameAnswer (execVlanAddModify s) (execVlanAddModify (unscheduled s)) :=
  sameAnswer_whenCreated hlive <| sameAnswer_withArg s.a.vid fun vid => sameAnswer_withArg s.a.mask0 fun _ =>
  sameAnswer_withArg s.a.mask1 fun _ => sameAnswer_withArg s.a.mask2 fun _ => sameAnswer_withArg s.a.mask3 fun _ => by
    obtain ⟨found, t, hf, hf', ht⟩ := scan_ignoresSchedule (vlanMatches vid) s hs
    obtain ⟨old, u, ho, ho', hu⟩ := existingMasks_ignoresSchedule (indexOf found) t ht
    simp only [matchVlan, hf, hf', ho, ho', unscheduled_cfg]
    exact addVlanWith_sameAnswer hu vid _

theorem execVlanDelModify_sameAnswer : SameAnswer (execVlanDelModify s) (execVlanDelModify (unscheduled s)) :=
  sameAnswer_whenCreated hlive <| sameAnswer_withArg s.a.vid fun vid => sameAnswer_withArg s.a.mask0 fun m0 =>
    sameAnswer_scan hs _ fun i t ht => by
      obtain ⟨e, u, he, he', hu⟩ := tblRead_ignoresSchedule i t ht
      obtain ⟨e', v, hd, hd', hv⟩ := delModify_ignoresSchedule e vid (portMask u.cfg m0) u hu
      simp only [he, he', unscheduled_cfg, hd, hd']
      exact sameAnswer_writeEntry hv i e'

theorem execDelVlan_sameAnswer (force : Bool) :
    SameAnswer (execDelVlan force s) (execDelVlan force (unscheduled s)) :=
  sameAnswer_whenCreated hlive <| sameAnswer_withArg s.a.vid fun vid => sameAnswer_withArg s.a.mask0 fun m0 =>
    sameAnswer_scan hs _ fun i t ht => by
      obtain ⟨e, u, he, he', hu⟩ := tblRead_ignoresSchedule i t ht
      obtain ⟨e', v, hd, hd', hv⟩ := delVlanImage_ignoresSchedule force e vid (portMask u.cfg m0) u hu
      simp only [he, he', unscheduled_cfg, hd, hd']
      exact sameAnswer_writeEntry hv i e'

theorem execSetUnregMcast_sameAnswer (en : Bool) :
    SameAnswer (execSetUnregMcast en s) (execSetUnregMcast en (unscheduled s)) :=
  sameAnswer_whenCreated hlive <| sameAnswer_withArg s.a.mask0 fun _ =>
    sameAnswer_completeStep hs _ (forEntries_ignoresSchedule (unregEntry_ignoresSchedule en _) s.cfg.n 0)

theorem execSetAllmulti_sameAnswer (en any : Bool) (port : BitVec 5) :
    SameAnswer (execSetAllmulti en any port s) (execSetAllmulti en any port (unscheduled s)) :=
  sameAnswer_whenCreated hlive <| by
    rw [unscheduled_cfg]
    split
    · exact sameAnswer_completeStep hs _
        (forEntries_ignoresSchedule (allmultiEntry_ignoresSchedule en any port) s.cfg.n 0)
    · exact sameAnswer_complete _ s

theorem execCtrlGet_sameAnswer (port cid : BitVec 5) :
    SameAnswer (execCtrlGet port cid s) (execCtrlGet port cid (unscheduled s)) :=
  sameAnswer_whenCreated hlive <| by
    have hplace : ctrlPlace port cid (unscheduled s) = ctrlPlace port cid s := rfl
    rw [hplace, unscheduled_cfg]
    split
    · exact sameAnswer_complete _ s
    · split
      · exact sameAnswer_refuse _ s
      next r _ =>
        obtain ⟨v, t, hv, hv', -⟩ := memRead_ignoresSchedule r s hs
        rw [hv, hv']
        exact ⟨_, rfl, rfl⟩

theorem execRatelimitMc_sameAnswer (port : BitVec 5) :
    SameAnswer (execRatelimitMc port s) (execRatelimitMc port (unscheduled s)) :=
  sameAnswer_whenCreated hlive <| sameAnswer_withArg s.a.value fun pps =>
    rateLimit_sameAnswer hs port mcastLimitId pps

theorem execRatelimitBc_sameAnswer (port : BitVec 5) :
    SameAnswer (execRatelimitBc port s) (execRatelimitBc port (unscheduled s)) :=
  sameAnswer_whenCreated hlive <| sameAnswer_withArg s.a.value fun pps =>
    rateLimit_sameAnswer hs port bcastLimitId pps

theorem execStatusQuery_sameAnswer : SameAnswer (execStatusQuery s) (execStatusQuery (unscheduled s)) :=
  sameAnswer_whenCreated hlive <| by
    obtain ⟨v, t, hv, hv', -⟩ := memRead_ignoresSchedule .status s hs
    rw [unscheduled_cfg, hv, hv']
    split
    · exact ⟨_, rfl, rfl⟩
    · exact sameAnswer_complete _ s

end Exec

/-- Settles O59: of a calm machine each command answers the same with and without the schedule. -/
theorem isolatedCommandsIgnoreTheSchedule : Obligations.IsolatedCommandsIgnoreTheSchedule := by
  intro i s t _ hlive hiso hquiet hcommand halone
  have hs : Calm s := ⟨hiso, hquiet⟩
  have hsame : SameAnswer (exec i s) (exec i (unscheduled s)) := by
    cases i with
    | tblRead => exact execTblRead_sameAnswer hs hlive
    | tblWrite => exact execTblWrite_sameAnswer hs hlive
    | dump => exact execDump_sameAnswer hs hlive
    | restore => exact execRestore_sameAnswer hs hlive
    | matchUcast => exact execMatchUcast_sameAnswer hs hlive
    | matchVlan => exact execMatchVlan_sameAnswer hs hlive
    | matchFree => exact execMatchFree_sameAnswer hs hlive
    | findAgeable => exact execFindAgeable_sameAnswer hs hlive
    | addUcast vlan secure blocked port => exact execAddUcast_sameAnswer hs hlive vlan secure blocked port
    | delUcast vlan => exact execDelUcast_sameAnswer hs hlive vlan
    | addMcast vlan super mstate => exact execAddMcast_sameAnswer hs hlive vlan super mstate
    | delMcast vlan => exact execDelMcast_sameAnswer hs hlive vlan
    | flushMcast any => exact execFlushMcast_sameAnswer hs hlive any
    | addVlan => exact execAddVlan_sameAnswer hs hlive
    | vlanAddModify => exact execVlanAddModify_sameAnswer hs hlive
    | vlanDelModify => exact execVlanDelModify_sameAnswer hs hlive
    | delVlan force => exact execDelVlan_sameAnswer hs hlive force
    | setUnregMcast en => exact execSetUnregMcast_sameAnswer hs hlive en
    | setAllmulti en any port => exact execSetAllmulti_sameAnswer hs hlive en any port
    | ctrlGet port cid => exact execCtrlGet_sameAnswer hs hlive port cid
    | ratelimitMc port => exact execRatelimitMc_sameAnswer hs hlive port
    | ratelimitBc port => exact execRatelimitBc_sameAnswer hs hlive port
    | statusQuery => exact execStatusQuery_sameAnswer hs hlive
    | start | stop | ctrlSet | mmioRead | mmioWrite => exact hcommand.elim
  obtain ⟨u, hu, hu'⟩ := hsame
  cases hu'.symm.trans halone
  exact ⟨u.sched, hu⟩

end Sys2Proof.Machine
end

section
/-! SUPPORT. Power-on and the hazards of the other agents (R360, R363, R370, R371): the values and the invariant at
reset, that isolated agents are inert, and the owner's write that a software tick undoes. -/

namespace Sys2Proof.Machine

/-! ### Power-on (R360) -/

/-- Settles O53: the values as `State.reset` holds them, and CONTROL's bits that are not stored read 0. -/
theorem resetLeavesTheStatedValues : Obligations.ResetLeavesTheStatedValues :=
  ⟨rfl, rfl, rfl, rfl, rfl, rfl, rfl, rfl, rfl, rfl, rfl, rfl, rfl, rfl, rfl, rfl⟩

/-- Settles O54: no engine is created at reset, and no entry is listed there. -/
theorem invariantHoldsAtReset : Obligations.InvariantHoldsAtReset :=
  ⟨rfl, rfl, by decide, nofun, nofun, fun _ => ⟨rfl, rfl, rfl⟩, nofun⟩

/-! ### Isolated agents (R363) -/

/-- Settles O58: no agent has a step. -/
theorem isolatedAgentsAreInert : Obligations.IsolatedAgentsAreInert :=
  fun _ x hi hq => agentStep_of_isolated x hi hq

/-! ### The owner's write and the software tick (R371) -/

/-- After a tick-write ENABLE is as it was read at tick-read (R300). -/
theorem tickWrite_enable {s : State} {v : ReadValue} (hpresent : swTimerPresent s = true)
    (hv : s.eng.swPending = some v) :
    (agentStep .tickWrite s).regs.control.getLsbD enableBit = (readWord v).getLsbD enableBit := by
  obtain ⟨-, -, hstored⟩ := ageoutPulse_fields (readWord v)
  obtain ⟨tb, k, hwrite⟩ := writeControl_frame (readWord v &&& 0xE00001FF ||| bitWord ageoutBit) s
  change (tickWrite s).regs.control.getLsbD enableBit = _
  rw [tickWrite_of_pending hpresent hv, readUnder_eq, hwrite, hstored]
  simp [enableBit]

/-- CTRL_SET of ENABLE to 0 alone: ENABLE is 0 after it, and of the rest only CONTROL's other fields, the table and the
count of free values can change (R272). -/
theorem exec_ctrlSet_disable {s : State} (hready : Ready s) (hsound : Sound s) (hv : s.a.value = some 0) :
    ∃ c tb k, exec (.ctrlSet 0 0) s = .next (withStatus .ok { s with
      regs := { s.regs with control := c }, table := tb, drawCount := k }) ∧ c.getLsbD enableBit = false := by
  obtain ⟨hlive, hs⟩ := hready
  have hplace : ctrlPlace 0 0 s = .ok ((globalCtrl .enable s.cfg.regOff.control 31 1).placeFor 0) :=
    (ctrlPlace_fieldIn hsound.ctrl rfl hsound.cfg rfl (.inl rfl)).1
  have hfield := controlCtrl_fieldIn (c := s.cfg) (shift := 31) (width := 1) .enable 0 (by decide)
  obtain ⟨w, k, hbody, hw⟩ := ctrlSetBody_ok (val := 0) hsound.cfg hplace hfield Nat.zero_lt_two
  rw [interleave_alone s hs, interleave_alone { s with drawCount := k } hs] at hbody
  obtain ⟨tb, k', hframe⟩ := writeControl_frame w { s with drawCount := k }
  refine ⟨w &&& controlRw, tb, k', ?_, ?_⟩
  · rw [exec_ctrlSet hlive hv hbody, writeReg, hframe]
    rfl
  · have hbit : w.getLsbD enableBit = false := by
      simpa [namedMask, enableBit, CtrlPlace.mask, Descriptor.placeFor, globalCtrl, maskWord] using
        congrArg (·.getLsbD enableBit) hw
    rw [BitVec.getLsbD_and, hbit, Bool.false_and]

/-- Settles O60: the tick holds CONTROL as it was before the owner's write, and writes it back. -/
theorem softwareTickUndoesTheOwnersWrite : Obligations.SoftwareTickUndoesTheOwnersWrite := by
  rintro s hinv ⟨⟨hf, hcreated⟩, hs⟩ hmode harmed hidle henable hv
  obtain ⟨hread, -⟩ := softwareTickPulsesAgeout s hcreated
  obtain ⟨v, k, htick, hnamed⟩ := hread ⟨hmode, harmed, hidle⟩
  have hkept : Kept s (agentStep .tickRead s) := agentStep_kept .tickRead s
  have hs' : Alone (agentStep .tickRead s) := by rw [htick]; exact hs
  have hpending : (agentStep .tickRead s).eng.swPending = some v := by rw [htick]
  generalize agentStep .tickRead s = u at hkept hs' hpending ⊢
  have hcreated' : u.eng.created = true := hkept.created.trans hcreated
  obtain ⟨c, tb, k', hset, hc⟩ := exec_ctrlSet_disable ⟨⟨hkept.faulted.trans hf, hcreated'⟩, hs'⟩
    (hkept.sound (Inv.sound hinv hcreated)) (by rw [hkept.a, hv])
  refine ⟨_, hset, rfl, hc, ?_⟩
  refine Eq.trans (tickWrite_enable ?_ hpending) ?_
  · simp [swTimerPresent, hcreated', hkept.agingMode, hmode]
  · rw [BitVec.getLsbD_eq_getElem (by decide)] at henable
    simpa [henable, enableBit] using congrArg (·.getLsbD 31) hnamed

end Sys2Proof.Machine
end
